-- ==== Sys2Proof/Word.lean ====
section
/-! DEFINITION. The word types of the DCPU-16N (spec/00_scope.md R1, R9): 16-bit words, 8-bit octets,
12-bit page numbers, 4-bit block numbers and 24-bit physical octet addresses. -/

namespace Sys2Proof

/-- A 16-bit word: every register, every virtual address, every value an instruction computes (R9, R10). -/
abbrev Word := BitVec 16

/-- An octet, the unit of the physical address space (R27). -/
abbrev Byte := BitVec 8

/-- A 12-bit page number, the contents of one EMU entry (R17). -/
abbrev Page := BitVec 12

/-- A 4-bit block number, the index of an EMU entry (R17). -/
abbrev Block := BitVec 4

/-- A 24-bit physical octet address (R27, R41, R42). -/
abbrev PAddr := BitVec 24

end Sys2Proof
end

