-- ==== Sys2Proof/Machine/Flags.lean ====
section
/-! DEFINITION. What the arithmetic, logic and shift instructions compute (spec/41_basic_alu.md R140 to R161), the new
b and the new EX, the one flag-like register (R13); the tests of the conditionals (spec/42_basic_conditional.md R170 to
R177); and the single-operand operations (spec/44_special_flow_data.md R205, R207, R208). Each is computed on
unbounded integers and narrowed at the end, as the rules are written. Arguments stand as `b a`. -/

namespace Sys2Proof.Machine

/-- `res` or `ex` of an unsigned result: the low 16 bits (R161). -/
def narrow (t : Nat) : Word := BitVec.ofNat 16 t

/-- `res` or `ex` of a signed result: the low 16 bits of its two's complement (R4, R161). -/
def narrowInt (t : Int) : Word := BitVec.ofInt 16 t

/-! ## Addition and subtraction -/

/-- ADD: b + a (R141). -/
def addRes (b a : Word) : Word := narrow (b.toNat + a.toNat)

/-- ADD's EX: 0x0001 on the unsigned carry, else 0 (R141). -/
def addEx (b a : Word) : Word := if b.toNat + a.toNat > 0xffff then 0x0001 else 0x0000

/-- SUB: b - a (R142). -/
def subRes (b a : Word) : Word := narrowInt ((b.toNat : Int) - a.toNat)

/-- SUB's EX: 0xffff on the unsigned borrow, else 0 (R142). -/
def subEx (b a : Word) : Word := if (b.toNat : Int) - a.toNat < 0 then 0xffff else 0x0000

/-- How ADX and SBX read the old EX: unsigned, or signed under the switch `ExInSigned` (D9, U4; log 7). -/
def exInput (signed : Bool) (ex : Word) : Int := if signed then ex.toInt else ex.toNat

/-- ADX's unbounded sum b + a + EX (R155). -/
def adxSum (signed : Bool) (ex b a : Word) : Int := b.toNat + a.toNat + exInput signed ex

/-- SBX's unbounded sum b - a + EX (R156). -/
def sbxSum (signed : Bool) (ex b a : Word) : Int := b.toNat - a.toNat + exInput signed ex

/-- ADX: b + a + EX (R155). -/
def adxRes (signed : Bool) (ex b a : Word) : Word := narrowInt (adxSum signed ex b a)

/-- ADX's EX: 0x0001 on overflow, else 0 (R155). -/
def adxEx (signed : Bool) (ex b a : Word) : Word := if adxSum signed ex b a > 0xffff then 0x0001 else 0x0000

/-- SBX: b - a + EX (R156). -/
def sbxRes (signed : Bool) (ex b a : Word) : Word := narrowInt (sbxSum signed ex b a)

/-- SBX's EX: 0xffff on underflow, 0x0001 on overflow, else 0 (R156). -/
def sbxEx (signed : Bool) (ex b a : Word) : Word :=
  if sbxSum signed ex b a < 0 then 0xffff else if sbxSum signed ex b a > 0xffff then 0x0001 else 0x0000

/-! ## Multiplication -/

/-- MUL: the low word of the unsigned product (R143). -/
def mulRes (b a : Word) : Word := narrow (b.toNat * a.toNat)

/-- MUL's EX: the high word of the unsigned product (R143). -/
def mulEx (b a : Word) : Word := narrow ((b.toNat * a.toNat) >>> 16)

/-- MLI: the low word of the signed product (R144). -/
def mliRes (b a : Word) : Word := narrowInt (b.toInt * a.toInt)

/-- MLI's EX: the high word of the signed product (R144). -/
def mliEx (b a : Word) : Word := narrowInt ((b.toInt * a.toInt) >>> 16)

/-! ## Division and remainder -/

/-- DIV: b / a, 0 where a is 0 (R145). -/
def divRes (b a : Word) : Word := if a = 0 then 0 else narrow (b.toNat / a.toNat)

/-- DIV's EX: the first 16 fraction bits of the quotient, 0 where a is 0 (R145). -/
def divEx (b a : Word) : Word := if a = 0 then 0 else narrow ((b.toNat <<< 16) / a.toNat)

/-- DVI: the signed quotient rounded toward 0, 0 where a is 0 (R146). -/
def dviRes (b a : Word) : Word := if a = 0 then 0 else narrowInt (b.toInt.tdiv a.toInt)

/-- DVI's EX: DIV's formula with signed operands and the same rounding (R146, D10; log 8). -/
def dviEx (b a : Word) : Word := if a = 0 then 0 else narrowInt ((b.toInt * 65536).tdiv a.toInt)

/-- MOD: the unsigned remainder, 0 where a is 0 (R147). -/
def modRes (b a : Word) : Word := if a = 0 then 0 else narrow (b.toNat % a.toNat)

/-- MDI: the remainder of DVI's division, 0 where a is 0 (R148). -/
def mdiRes (b a : Word) : Word :=
  if a = 0 then 0 else narrowInt (b.toInt - a.toInt * b.toInt.tdiv a.toInt)

/-! ## Logic -/

/-- AND (R149). -/
def andRes (b a : Word) : Word := b &&& a

/-- BOR (R150). -/
def borRes (b a : Word) : Word := b ||| a

/-- XOR (R151). -/
def xorRes (b a : Word) : Word := b ^^^ a

/-! ## Shifts: the count is the whole of a, 0 to 65535 (D8; log 6) -/

/-- SHR: b shifted right logically (R152). -/
def shrRes (b a : Word) : Word := narrow (b.toNat >>> a.toNat)

/-- SHR's EX: the bits shifted out at the bottom, left-aligned (R152). -/
def shrEx (b a : Word) : Word := narrow ((b.toNat <<< 16) >>> a.toNat)

/-- ASR: b shifted right arithmetically (R153). -/
def asrRes (b a : Word) : Word := narrowInt (b.toInt >>> a.toNat)

/-- ASR's EX: the bits shifted out at the bottom, filled with sign bits above a count of 16 (R153). -/
def asrEx (b a : Word) : Word := narrowInt ((b.toInt * 65536) >>> a.toNat)

/-- SHL's `t`: b * 2^a; for a count of 32 and more both outputs are 0, and `t` is not built (R154). -/
def shlWide (b a : Word) : Nat := if a.toNat < 32 then b.toNat <<< a.toNat else 0

/-- SHL: b shifted left (R154). -/
def shlRes (b a : Word) : Word := narrow (shlWide b a)

/-- SHL's EX: the bits shifted out at the top (R154). -/
def shlEx (b a : Word) : Word := narrow (shlWide b a >>> 16)

/-! ## Tests of the conditionals -/

/-- IFB: (b & a) != 0 (R170). -/
def testIfb (b a : Word) : Bool := b &&& a != 0

/-- IFC: (b & a) == 0 (R171). -/
def testIfc (b a : Word) : Bool := b &&& a == 0

/-- IFE: b == a (R172). -/
def testIfe (b a : Word) : Bool := b == a

/-- IFN: b != a (R173). -/
def testIfn (b a : Word) : Bool := b != a

/-- IFG: b > a, unsigned (R174). -/
def testIfg (b a : Word) : Bool := decide (b.toNat > a.toNat)

/-- IFA: b > a, signed (R175). -/
def testIfa (b a : Word) : Bool := decide (b.toInt > a.toInt)

/-- IFL: b < a, unsigned (R176). -/
def testIfl (b a : Word) : Bool := decide (b.toNat < a.toNat)

/-- IFU: b < a, signed (R177). -/
def testIfu (b a : Word) : Bool := decide (b.toInt < a.toInt)

/-! ## Single-operand operations -/

/-- NEG: the two's complement negation (R205). -/
def negRes (a : Word) : Word := narrowInt (0 - (a.toNat : Int))

/-- SXB: the low octet, sign-extended (R207). -/
def sxbRes (a : Word) : Word := (a.extractLsb' 0 8).signExtend 16

/-- SWP: the octets exchanged (R208). -/
def swpRes (a : Word) : Word := a.extractLsb' 0 8 ++ a.extractLsb' 8 8

end Sys2Proof.Machine
end

