-- ==== Sys2Proof/Syntax.lean ====
section
/-! DEFINITION. The syntax of DCPU-16N instructions (spec/30_encoding.md): one constructor of `Instr` per row of
spec/opcode_table.json, the reserved opcodes among them, over one type of operands. A constructor's operands stand in
the assembler's order, `b` before `a` (R85). -/

namespace Sys2Proof

/-- The eight general registers, in the order of their numbers 0 to 7 (R10). -/
inductive Reg where
  | a | b | c | x | y | z | i | j
deriving DecidableEq, Repr

/-- An operand, with its next word where the code has one (R76). The a and the b field share this type:
`stack`, code 0x18, is POP in an a field and PUSH in a b field, "decided by the field alone" (R76);
`inline` exists only in an a field (`Instr.wellFormed`). -/
inductive Operand where
  /-- 0x00-0x07: a register. -/
  | reg (r : Reg)
  /-- 0x08-0x0f: [register]. -/
  | ind (r : Reg)
  /-- 0x10-0x17: [register + next word]. -/
  | indNext (r : Reg) (n : Word)
  /-- 0x18: POP as a, PUSH as b. -/
  | stack
  /-- 0x19: [SP], PEEK. -/
  | peek
  /-- 0x1a: [SP + next word], PICK n. -/
  | pick (n : Word)
  /-- 0x1b: SP. -/
  | sp
  /-- 0x1c: PC. -/
  | pc
  /-- 0x1d: EX. -/
  | ex
  /-- 0x1e: [next word]. -/
  | absolute (n : Word)
  /-- 0x1f: next word, a literal. -/
  | literal (n : Word)
  /-- 0x20-0x3f: the literal n itself, -1 to 30 (R77). -/
  | inline (n : Word)
deriving DecidableEq, Repr

/-- The instructions, one constructor per row of the opcode table, in the table's order (R80, R81, R82, R83). -/
inductive Instr where
  /-- `SET b, a`, basic opcode 0x01 (R140). -/
  | set (b a : Operand)
  /-- `ADD b, a`, basic opcode 0x02 (R141). -/
  | add (b a : Operand)
  /-- `SUB b, a`, basic opcode 0x03 (R142). -/
  | sub (b a : Operand)
  /-- `MUL b, a`, basic opcode 0x04 (R143). -/
  | mul (b a : Operand)
  /-- `MLI b, a`, basic opcode 0x05 (R144). -/
  | mli (b a : Operand)
  /-- `DIV b, a`, basic opcode 0x06 (R145). -/
  | div (b a : Operand)
  /-- `DVI b, a`, basic opcode 0x07 (R146). -/
  | dvi (b a : Operand)
  /-- `MOD b, a`, basic opcode 0x08 (R147). -/
  | mod (b a : Operand)
  /-- `MDI b, a`, basic opcode 0x09 (R148). -/
  | mdi (b a : Operand)
  /-- `AND b, a`, basic opcode 0x0a (R149). -/
  | and (b a : Operand)
  /-- `BOR b, a`, basic opcode 0x0b (R150). -/
  | bor (b a : Operand)
  /-- `XOR b, a`, basic opcode 0x0c (R151). -/
  | xor (b a : Operand)
  /-- `SHR b, a`, basic opcode 0x0d (R152). -/
  | shr (b a : Operand)
  /-- `ASR b, a`, basic opcode 0x0e (R153). -/
  | asr (b a : Operand)
  /-- `SHL b, a`, basic opcode 0x0f (R154). -/
  | shl (b a : Operand)
  /-- `IFB b, a`, basic opcode 0x10 (R170). -/
  | ifb (b a : Operand)
  /-- `IFC b, a`, basic opcode 0x11 (R171). -/
  | ifc (b a : Operand)
  /-- `IFE b, a`, basic opcode 0x12 (R172). -/
  | ife (b a : Operand)
  /-- `IFN b, a`, basic opcode 0x13 (R173). -/
  | ifn (b a : Operand)
  /-- `IFG b, a`, basic opcode 0x14 (R174). -/
  | ifg (b a : Operand)
  /-- `IFA b, a`, basic opcode 0x15 (R175). -/
  | ifa (b a : Operand)
  /-- `IFL b, a`, basic opcode 0x16 (R176). -/
  | ifl (b a : Operand)
  /-- `IFU b, a`, basic opcode 0x17 (R177). -/
  | ifu (b a : Operand)
  /-- Reserved basic opcode 0x18 (R83). -/
  | reservedBasic18 (b a : Operand)
  /-- Reserved basic opcode 0x19 (R83). -/
  | reservedBasic19 (b a : Operand)
  /-- `ADX b, a`, basic opcode 0x1a (R155). -/
  | adx (b a : Operand)
  /-- `SBX b, a`, basic opcode 0x1b (R156). -/
  | sbx (b a : Operand)
  /-- `HWW b, a`, basic opcode 0x1c (R191). -/
  | hww (b a : Operand)
  /-- `HWR b, a`, basic opcode 0x1d (R192). -/
  | hwr (b a : Operand)
  /-- `STI b, a`, basic opcode 0x1e (R157). -/
  | sti (b a : Operand)
  /-- `STD b, a`, basic opcode 0x1f (R158). -/
  | std (b a : Operand)
  /-- `JSR a`, special opcode 0x01 (R200). -/
  | jsr (a : Operand)
  /-- `BSR a`, special opcode 0x02 (R201). -/
  | bsr (a : Operand)
  /-- Reserved special opcode 0x03 (R83). -/
  | reservedSpecial03 (a : Operand)
  /-- Reserved special opcode 0x04 (R83). -/
  | reservedSpecial04 (a : Operand)
  /-- `NEG a`, special opcode 0x05 (R205). -/
  | neg (a : Operand)
  /-- Reserved special opcode 0x06 (R83). -/
  | reservedSpecial06 (a : Operand)
  /-- `HCF a`, special opcode 0x07 (R206). -/
  | hcf (a : Operand)
  /-- `INT a`, special opcode 0x08 (R220). -/
  | int (a : Operand)
  /-- `IAG a`, special opcode 0x09 (R221). -/
  | iag (a : Operand)
  /-- `IAS a`, special opcode 0x0a (R222). -/
  | ias (a : Operand)
  /-- `RFI a`, special opcode 0x0b (R223). -/
  | rfi (a : Operand)
  /-- `IAQ a`, special opcode 0x0c (R224). -/
  | iaq (a : Operand)
  /-- Reserved special opcode 0x0d (R83). -/
  | reservedSpecial0d (a : Operand)
  /-- `MMW a`, special opcode 0x0e (R230). -/
  | mmw (a : Operand)
  /-- `MMR a`, special opcode 0x0f (R231). -/
  | mmr (a : Operand)
  /-- `OSN a`, special opcode 0x10 (R236). -/
  | osn (a : Operand)
  /-- `OSQ a`, special opcode 0x11 (R237). -/
  | osq (a : Operand)
  /-- `OSI a`, special opcode 0x12 (R238). -/
  | osi (a : Operand)
  /-- `OSR a`, special opcode 0x13 (R239). -/
  | osr (a : Operand)
  /-- `SXB a`, special opcode 0x14 (R207). -/
  | sxb (a : Operand)
  /-- `SWP a`, special opcode 0x15 (R208). -/
  | swp (a : Operand)
  /-- Reserved special opcode 0x16 (R83). -/
  | reservedSpecial16 (a : Operand)
  /-- Reserved special opcode 0x17 (R83). -/
  | reservedSpecial17 (a : Operand)
  /-- `RFO a`, special opcode 0x18 (R240). -/
  | rfo (a : Operand)
  /-- Reserved special opcode 0x19 (R83). -/
  | reservedSpecial19 (a : Operand)
  /-- `OMG a`, special opcode 0x1a (R241). -/
  | omg (a : Operand)
  /-- `OMS a`, special opcode 0x1b (R242). -/
  | oms (a : Operand)
  /-- `OVG a`, special opcode 0x1c (R243). -/
  | ovg (a : Operand)
  /-- `OVS a`, special opcode 0x1d (R244). -/
  | ovs (a : Operand)
  /-- Reserved special opcode 0x1e (R83). -/
  | reservedSpecial1e (a : Operand)
  /-- `CME a`, special opcode 0x1f (R248). -/
  | cme (a : Operand)
  /-- `HLT`, implied opcode 0x00 (R260). -/
  | hlt (v : Bool)
  /-- `SLP`, implied opcode 0x01 (R262). -/
  | slp (v : Bool)
  /-- `SFR`, implied opcode 0x02 (R264). -/
  | sfr (v : Bool)
  /-- Reserved implied opcode 0x03 (R83). -/
  | reservedImplied03 (v : Bool)
  /-- `BYT`, implied opcode 0x04 (R266). -/
  | byt (v : Bool)
  /-- Reserved implied opcode 0x05 (R83). -/
  | reservedImplied05 (v : Bool)
  /-- Reserved implied opcode 0x06 (R83). -/
  | reservedImplied06 (v : Bool)
  /-- Reserved implied opcode 0x07 (R83). -/
  | reservedImplied07 (v : Bool)
  /-- Reserved implied opcode 0x08 (R83). -/
  | reservedImplied08 (v : Bool)
  /-- Reserved implied opcode 0x09 (R83). -/
  | reservedImplied09 (v : Bool)
  /-- Reserved implied opcode 0x0a (R83). -/
  | reservedImplied0a (v : Bool)
  /-- Reserved implied opcode 0x0b (R83). -/
  | reservedImplied0b (v : Bool)
  /-- Reserved implied opcode 0x0c (R83). -/
  | reservedImplied0c (v : Bool)
  /-- Reserved implied opcode 0x0d (R83). -/
  | reservedImplied0d (v : Bool)
  /-- Reserved implied opcode 0x0e (R83). -/
  | reservedImplied0e (v : Bool)
  /-- Reserved implied opcode 0x0f (R83). -/
  | reservedImplied0f (v : Bool)
  /-- `SKP`, implied opcode 0x10 (R270). -/
  | skp (v : Bool)
  /-- Reserved implied opcode 0x11 (R83). -/
  | reservedImplied11 (v : Bool)
  /-- Reserved implied opcode 0x12 (R83). -/
  | reservedImplied12 (v : Bool)
  /-- Reserved implied opcode 0x13 (R83). -/
  | reservedImplied13 (v : Bool)
  /-- Reserved implied opcode 0x14 (R83). -/
  | reservedImplied14 (v : Bool)
  /-- Reserved implied opcode 0x15 (R83). -/
  | reservedImplied15 (v : Bool)
  /-- Reserved implied opcode 0x16 (R83). -/
  | reservedImplied16 (v : Bool)
  /-- Reserved implied opcode 0x17 (R83). -/
  | reservedImplied17 (v : Bool)
  /-- Reserved implied opcode 0x18 (R83). -/
  | reservedImplied18 (v : Bool)
  /-- Reserved implied opcode 0x19 (R83). -/
  | reservedImplied19 (v : Bool)
  /-- Reserved implied opcode 0x1a (R83). -/
  | reservedImplied1a (v : Bool)
  /-- Reserved implied opcode 0x1b (R83). -/
  | reservedImplied1b (v : Bool)
  /-- Reserved implied opcode 0x1c (R83). -/
  | reservedImplied1c (v : Bool)
  /-- Reserved implied opcode 0x1d (R83). -/
  | reservedImplied1d (v : Bool)
  /-- Reserved implied opcode 0x1e (R83). -/
  | reservedImplied1e (v : Bool)
  /-- Reserved implied opcode 0x1f (R83). -/
  | reservedImplied1f (v : Bool)
deriving DecidableEq, Repr

end Sys2Proof
end

