-- ==== Sys2Proof/WellFormed.lean ====
section
/-! DEFINITION. Which terms of `Instr` an encoding stands for (spec/30_encoding.md R76, R77): an inline literal is a
value of -1 to 30, and inline literals exist "only for a". -/

namespace Sys2Proof

/-- The values an inline literal can have: 0xffff (-1) and 0 to 30 (R77). -/
def inlineRange (n : Word) : Bool :=
  n == 0xffff#16 || decide (n.toNat ≤ 30)

/-- The check of an a operand: an inline literal is in range (R77). -/
def Operand.okAsA : Operand → Bool
  | .inline n => inlineRange n
  | _ => true

/-- The check of a b operand: codes 0x20 to 0x3f do not fit in the field (R76). -/
def Operand.okAsB : Operand → Bool
  | .inline _ => false
  | _ => true

/-- An instruction is well formed when each operand fits the field it stands in. -/
def Instr.wellFormed : Instr → Bool
  | .set b a => b.okAsB && a.okAsA
  | .add b a => b.okAsB && a.okAsA
  | .sub b a => b.okAsB && a.okAsA
  | .mul b a => b.okAsB && a.okAsA
  | .mli b a => b.okAsB && a.okAsA
  | .div b a => b.okAsB && a.okAsA
  | .dvi b a => b.okAsB && a.okAsA
  | .mod b a => b.okAsB && a.okAsA
  | .mdi b a => b.okAsB && a.okAsA
  | .and b a => b.okAsB && a.okAsA
  | .bor b a => b.okAsB && a.okAsA
  | .xor b a => b.okAsB && a.okAsA
  | .shr b a => b.okAsB && a.okAsA
  | .asr b a => b.okAsB && a.okAsA
  | .shl b a => b.okAsB && a.okAsA
  | .ifb b a => b.okAsB && a.okAsA
  | .ifc b a => b.okAsB && a.okAsA
  | .ife b a => b.okAsB && a.okAsA
  | .ifn b a => b.okAsB && a.okAsA
  | .ifg b a => b.okAsB && a.okAsA
  | .ifa b a => b.okAsB && a.okAsA
  | .ifl b a => b.okAsB && a.okAsA
  | .ifu b a => b.okAsB && a.okAsA
  | .reservedBasic18 b a => b.okAsB && a.okAsA
  | .reservedBasic19 b a => b.okAsB && a.okAsA
  | .adx b a => b.okAsB && a.okAsA
  | .sbx b a => b.okAsB && a.okAsA
  | .hww b a => b.okAsB && a.okAsA
  | .hwr b a => b.okAsB && a.okAsA
  | .sti b a => b.okAsB && a.okAsA
  | .std b a => b.okAsB && a.okAsA
  | .jsr a => a.okAsA
  | .bsr a => a.okAsA
  | .reservedSpecial03 a => a.okAsA
  | .reservedSpecial04 a => a.okAsA
  | .neg a => a.okAsA
  | .reservedSpecial06 a => a.okAsA
  | .hcf a => a.okAsA
  | .int a => a.okAsA
  | .iag a => a.okAsA
  | .ias a => a.okAsA
  | .rfi a => a.okAsA
  | .iaq a => a.okAsA
  | .reservedSpecial0d a => a.okAsA
  | .mmw a => a.okAsA
  | .mmr a => a.okAsA
  | .osn a => a.okAsA
  | .osq a => a.okAsA
  | .osi a => a.okAsA
  | .osr a => a.okAsA
  | .sxb a => a.okAsA
  | .swp a => a.okAsA
  | .reservedSpecial16 a => a.okAsA
  | .reservedSpecial17 a => a.okAsA
  | .rfo a => a.okAsA
  | .reservedSpecial19 a => a.okAsA
  | .omg a => a.okAsA
  | .oms a => a.okAsA
  | .ovg a => a.okAsA
  | .ovs a => a.okAsA
  | .reservedSpecial1e a => a.okAsA
  | .cme a => a.okAsA
  | .hlt _ => true
  | .slp _ => true
  | .sfr _ => true
  | .reservedImplied03 _ => true
  | .byt _ => true
  | .reservedImplied05 _ => true
  | .reservedImplied06 _ => true
  | .reservedImplied07 _ => true
  | .reservedImplied08 _ => true
  | .reservedImplied09 _ => true
  | .reservedImplied0a _ => true
  | .reservedImplied0b _ => true
  | .reservedImplied0c _ => true
  | .reservedImplied0d _ => true
  | .reservedImplied0e _ => true
  | .reservedImplied0f _ => true
  | .skp _ => true
  | .reservedImplied11 _ => true
  | .reservedImplied12 _ => true
  | .reservedImplied13 _ => true
  | .reservedImplied14 _ => true
  | .reservedImplied15 _ => true
  | .reservedImplied16 _ => true
  | .reservedImplied17 _ => true
  | .reservedImplied18 _ => true
  | .reservedImplied19 _ => true
  | .reservedImplied1a _ => true
  | .reservedImplied1b _ => true
  | .reservedImplied1c _ => true
  | .reservedImplied1d _ => true
  | .reservedImplied1e _ => true
  | .reservedImplied1f _ => true

end Sys2Proof
end

