-- ==== Sys2Proof/Decode.lean ====
section
/-! DEFINITION. Decoding and encoding (spec/30_encoding.md R70 to R84): the fields of the first word, the operand codes,
the choice of the format, the length rule, the decoder on words and on bytes, and after it the encoder, written from
the same tables. Also the octet order of a word (spec/20_memory.md R43), which the memory operations share. -/

namespace Sys2Proof

/-! ## Octets of a word -/

/-- Bits 7:0 of a word, the octet at the lower address (R43). -/
def lowOctet (w : Word) : Byte := w.extractLsb' 0 8

/-- Bits 15:8 of a word, the octet at the higher address (R43). -/
def highOctet (w : Word) : Byte := w.extractLsb' 8 8

/-- The word of two octets: "the lower addressed octet becomes the lower 8 bits" (R43). -/
def joinOctets (lo hi : Byte) : Word := hi ++ lo

/-! ## Fields of the first word -/

/-- Bits 4:0: the basic opcode (R71). -/
def opField (w : Word) : BitVec 5 := w.extractLsb' 0 5

/-- Bits 9:5: the b code of a basic, the opcode of a special instruction (R71, R72). -/
def bField (w : Word) : BitVec 5 := w.extractLsb' 5 5

/-- Bits 15:10: the a code (R71, R72). -/
def aField (w : Word) : BitVec 6 := w.extractLsb' 10 6

/-- Bits 14:10: the implied opcode (R73). -/
def impliedField (w : Word) : BitVec 5 := w.extractLsb' 10 5

/-- Bit 15: the flag v of the implied format (R73). -/
def vField (w : Word) : Bool := w.getLsbD 15

/-- Does an operand code take a next word: 0x10 to 0x17, 0x1a, 0x1e, 0x1f (`nw` of R75). -/
def codeHasNext (c : BitVec 6) : Bool :=
  (decide (0x10 ≤ c.toNat) && decide (c.toNat ≤ 0x17)) || c == 0x1a#6 || c == 0x1e#6 || c == 0x1f#6

/-- How many next words an operand code takes, 0 or 1 (`nw` of R75). -/
def nextCount (c : BitVec 6) : Nat := if codeHasNext c then 1 else 0

/-- The length in words of the instruction whose first word is `w`, "fully defined by the first word" (R70, R75). -/
def instrLength (w : Word) : Nat :=
  if opField w ≠ 0#5 then 1 + nextCount (aField w) + nextCount ((bField w).setWidth 6)
  else if bField w ≠ 0#5 then 1 + nextCount (aField w)
  else 1

/-- Is the instruction whose first word is `w` conditional: a basic opcode in 0x10 to 0x17
(42_basic_conditional.md section 1, R178). -/
def isConditionalWord (w : Word) : Bool :=
  decide (0x10 ≤ (opField w).toNat) && decide ((opField w).toNat ≤ 0x17)

/-! ## Operand codes -/

/-- Register number to register (R10). -/
def regOfNumber (k : BitVec 3) : Reg :=
  if k = 0#3 then .a else if k = 1#3 then .b else if k = 2#3 then .c else if k = 3#3 then .x
  else if k = 4#3 then .y else if k = 5#3 then .z else if k = 6#3 then .i else .j

/-- Register to register number (R10). -/
def regNumber : Reg → BitVec 3
  | .a => 0 | .b => 1 | .c => 2 | .x => 3 | .y => 4 | .z => 5 | .i => 6 | .j => 7

/-- The codes 0x18 to 0x1f of the operand table (R76), by their low three bits. -/
def specialOperand (k : BitVec 3) (n : Word) : Operand :=
  if k = 0#3 then .stack else if k = 1#3 then .peek else if k = 2#3 then .pick n else if k = 3#3 then .sp
  else if k = 4#3 then .pc else if k = 5#3 then .ex else if k = 6#3 then .absolute n else .literal n

/-- The operand of a six-bit code and the next word it takes, if it takes one (R76, R77). A b code is this
code with bit 5 clear. -/
def operandOfCode (c : BitVec 6) (n : Word) : Operand :=
  let low := c.extractLsb' 0 3
  if c.toNat < 0x08 then .reg (regOfNumber low)
  else if c.toNat < 0x10 then .ind (regOfNumber low)
  else if c.toNat < 0x18 then .indNext (regOfNumber low) n
  else if c.toNat < 0x20 then specialOperand low n
  else .inline (c.setWidth 16 - 0x21#16)

/-! ## Opcode maps -/

/-- The basic opcode map; opcode 0x00 escapes to the special format (R80, R83). -/
def basicInstr (o : BitVec 5) (b a : Operand) : Option Instr :=
  match o.toNat with
  | 0x01 => some (.set b a)
  | 0x02 => some (.add b a)
  | 0x03 => some (.sub b a)
  | 0x04 => some (.mul b a)
  | 0x05 => some (.mli b a)
  | 0x06 => some (.div b a)
  | 0x07 => some (.dvi b a)
  | 0x08 => some (.mod b a)
  | 0x09 => some (.mdi b a)
  | 0x0a => some (.and b a)
  | 0x0b => some (.bor b a)
  | 0x0c => some (.xor b a)
  | 0x0d => some (.shr b a)
  | 0x0e => some (.asr b a)
  | 0x0f => some (.shl b a)
  | 0x10 => some (.ifb b a)
  | 0x11 => some (.ifc b a)
  | 0x12 => some (.ife b a)
  | 0x13 => some (.ifn b a)
  | 0x14 => some (.ifg b a)
  | 0x15 => some (.ifa b a)
  | 0x16 => some (.ifl b a)
  | 0x17 => some (.ifu b a)
  | 0x18 => some (.reservedBasic18 b a)
  | 0x19 => some (.reservedBasic19 b a)
  | 0x1a => some (.adx b a)
  | 0x1b => some (.sbx b a)
  | 0x1c => some (.hww b a)
  | 0x1d => some (.hwr b a)
  | 0x1e => some (.sti b a)
  | 0x1f => some (.std b a)
  | _ => none

/-- The special opcode map; opcode 0x00 escapes to the implied format (R81, R83). -/
def specialInstr (o : BitVec 5) (a : Operand) : Option Instr :=
  match o.toNat with
  | 0x01 => some (.jsr a)
  | 0x02 => some (.bsr a)
  | 0x03 => some (.reservedSpecial03 a)
  | 0x04 => some (.reservedSpecial04 a)
  | 0x05 => some (.neg a)
  | 0x06 => some (.reservedSpecial06 a)
  | 0x07 => some (.hcf a)
  | 0x08 => some (.int a)
  | 0x09 => some (.iag a)
  | 0x0a => some (.ias a)
  | 0x0b => some (.rfi a)
  | 0x0c => some (.iaq a)
  | 0x0d => some (.reservedSpecial0d a)
  | 0x0e => some (.mmw a)
  | 0x0f => some (.mmr a)
  | 0x10 => some (.osn a)
  | 0x11 => some (.osq a)
  | 0x12 => some (.osi a)
  | 0x13 => some (.osr a)
  | 0x14 => some (.sxb a)
  | 0x15 => some (.swp a)
  | 0x16 => some (.reservedSpecial16 a)
  | 0x17 => some (.reservedSpecial17 a)
  | 0x18 => some (.rfo a)
  | 0x19 => some (.reservedSpecial19 a)
  | 0x1a => some (.omg a)
  | 0x1b => some (.oms a)
  | 0x1c => some (.ovg a)
  | 0x1d => some (.ovs a)
  | 0x1e => some (.reservedSpecial1e a)
  | 0x1f => some (.cme a)
  | _ => none

/-- The implied opcode map (R82, R83). The last row, 0x1f, is the reserved opcode the table gives it. -/
def impliedInstr (o : BitVec 5) (v : Bool) : Instr :=
  match o.toNat with
  | 0x00 => .hlt v
  | 0x01 => .slp v
  | 0x02 => .sfr v
  | 0x03 => .reservedImplied03 v
  | 0x04 => .byt v
  | 0x05 => .reservedImplied05 v
  | 0x06 => .reservedImplied06 v
  | 0x07 => .reservedImplied07 v
  | 0x08 => .reservedImplied08 v
  | 0x09 => .reservedImplied09 v
  | 0x0a => .reservedImplied0a v
  | 0x0b => .reservedImplied0b v
  | 0x0c => .reservedImplied0c v
  | 0x0d => .reservedImplied0d v
  | 0x0e => .reservedImplied0e v
  | 0x0f => .reservedImplied0f v
  | 0x10 => .skp v
  | 0x11 => .reservedImplied11 v
  | 0x12 => .reservedImplied12 v
  | 0x13 => .reservedImplied13 v
  | 0x14 => .reservedImplied14 v
  | 0x15 => .reservedImplied15 v
  | 0x16 => .reservedImplied16 v
  | 0x17 => .reservedImplied17 v
  | 0x18 => .reservedImplied18 v
  | 0x19 => .reservedImplied19 v
  | 0x1a => .reservedImplied1a v
  | 0x1b => .reservedImplied1b v
  | 0x1c => .reservedImplied1c v
  | 0x1d => .reservedImplied1d v
  | 0x1e => .reservedImplied1e v
  | _ => .reservedImplied1f v

/-! ## The decoder -/

/-- The instruction of three words: the first, and the two that follow it. Only as many of the following words as
`instrLength` says are used, a's next word first (R74, R88). Every first word has an instruction, a reserved opcode
its own (R83). -/
def decodeWords (w n₁ n₂ : Word) : Instr :=
  let a := operandOfCode (aField w) n₁
  let b := operandOfCode ((bField w).setWidth 6) (if codeHasNext (aField w) then n₂ else n₁)
  match basicInstr (opField w) b a with
  | some i => i
  | none =>
    match specialInstr (bField w) a with
    | some i => i
    | none => impliedInstr (impliedField w) (vField w)

/-- Why a list of bytes is no instruction. No first word is refused: the decoder refuses only bytes that end before
the instruction does. -/
inductive DecodeError where
  /-- Fewer than two bytes: no first word. -/
  | missingFirstWord
  /-- The bytes end before the next words that the first word asks for (R75). -/
  | missingNextWord
deriving DecidableEq, Repr

/-- Takes `k` little-endian words off a list of bytes (R43). -/
def takeWords : Nat → List Byte → Option (List Word × List Byte)
  | 0, bytes => some ([], bytes)
  | k + 1, lo :: hi :: bytes =>
    match takeWords k bytes with
    | some (ws, rest) => some (joinOctets lo hi :: ws, rest)
    | none => none
  | _ + 1, _ => none

/-- The decoder, total on any bytes: the first instruction and the bytes after it (R70, R74, R75). -/
def decode (bytes : List Byte) : Except DecodeError (Instr × List Byte) :=
  match takeWords 1 bytes with
  | some ([w], rest) =>
    match takeWords (instrLength w - 1) rest with
    | some (ns, rest') => .ok (decodeWords w (ns.getD 0 0) (ns.getD 1 0), rest')
    | none => .error .missingNextWord
  | _ => .error .missingFirstWord

/-! ## The encoder -/

/-- The six-bit code of an operand (R76, R77). -/
def operandCode : Operand → BitVec 6
  | .reg r => 0b000#3 ++ regNumber r
  | .ind r => 0b001#3 ++ regNumber r
  | .indNext r _ => 0b010#3 ++ regNumber r
  | .stack => 0x18
  | .peek => 0x19
  | .pick _ => 0x1a
  | .sp => 0x1b
  | .pc => 0x1c
  | .ex => 0x1d
  | .absolute _ => 0x1e
  | .literal _ => 0x1f
  | .inline n => (n + 0x21#16).setWidth 6

/-- The next words of an operand, none or one (R76). -/
def operandNext : Operand → List Word
  | .indNext _ n | .pick n | .absolute n | .literal n => [n]
  | _ => []

/-- `word = (a << 10) | (b << 5) | o`, then a's next word, then b's (R71, R88). -/
def basicWords (o : BitVec 5) (b a : Operand) : List Word :=
  (operandCode a ++ (operandCode b).setWidth 5 ++ o : Word) :: (operandNext a ++ operandNext b)

/-- `word = (a << 10) | (o << 5)`, then a's next word (R72). -/
def specialWords (o : BitVec 5) (a : Operand) : List Word :=
  (operandCode a ++ o ++ 0#5 : Word) :: operandNext a

/-- `word = (v << 15) | (o << 10)` (R73). -/
def impliedWords (o : BitVec 5) (v : Bool) : List Word :=
  [(BitVec.ofBool v ++ o ++ 0#10 : Word)]

/-- The words of an instruction, from the opcode maps R80, R81, R82 and R83. -/
def encode : Instr → List Word
  | .set b a => basicWords 0x01 b a
  | .add b a => basicWords 0x02 b a
  | .sub b a => basicWords 0x03 b a
  | .mul b a => basicWords 0x04 b a
  | .mli b a => basicWords 0x05 b a
  | .div b a => basicWords 0x06 b a
  | .dvi b a => basicWords 0x07 b a
  | .mod b a => basicWords 0x08 b a
  | .mdi b a => basicWords 0x09 b a
  | .and b a => basicWords 0x0a b a
  | .bor b a => basicWords 0x0b b a
  | .xor b a => basicWords 0x0c b a
  | .shr b a => basicWords 0x0d b a
  | .asr b a => basicWords 0x0e b a
  | .shl b a => basicWords 0x0f b a
  | .ifb b a => basicWords 0x10 b a
  | .ifc b a => basicWords 0x11 b a
  | .ife b a => basicWords 0x12 b a
  | .ifn b a => basicWords 0x13 b a
  | .ifg b a => basicWords 0x14 b a
  | .ifa b a => basicWords 0x15 b a
  | .ifl b a => basicWords 0x16 b a
  | .ifu b a => basicWords 0x17 b a
  | .reservedBasic18 b a => basicWords 0x18 b a
  | .reservedBasic19 b a => basicWords 0x19 b a
  | .adx b a => basicWords 0x1a b a
  | .sbx b a => basicWords 0x1b b a
  | .hww b a => basicWords 0x1c b a
  | .hwr b a => basicWords 0x1d b a
  | .sti b a => basicWords 0x1e b a
  | .std b a => basicWords 0x1f b a
  | .jsr a => specialWords 0x01 a
  | .bsr a => specialWords 0x02 a
  | .reservedSpecial03 a => specialWords 0x03 a
  | .reservedSpecial04 a => specialWords 0x04 a
  | .neg a => specialWords 0x05 a
  | .reservedSpecial06 a => specialWords 0x06 a
  | .hcf a => specialWords 0x07 a
  | .int a => specialWords 0x08 a
  | .iag a => specialWords 0x09 a
  | .ias a => specialWords 0x0a a
  | .rfi a => specialWords 0x0b a
  | .iaq a => specialWords 0x0c a
  | .reservedSpecial0d a => specialWords 0x0d a
  | .mmw a => specialWords 0x0e a
  | .mmr a => specialWords 0x0f a
  | .osn a => specialWords 0x10 a
  | .osq a => specialWords 0x11 a
  | .osi a => specialWords 0x12 a
  | .osr a => specialWords 0x13 a
  | .sxb a => specialWords 0x14 a
  | .swp a => specialWords 0x15 a
  | .reservedSpecial16 a => specialWords 0x16 a
  | .reservedSpecial17 a => specialWords 0x17 a
  | .rfo a => specialWords 0x18 a
  | .reservedSpecial19 a => specialWords 0x19 a
  | .omg a => specialWords 0x1a a
  | .oms a => specialWords 0x1b a
  | .ovg a => specialWords 0x1c a
  | .ovs a => specialWords 0x1d a
  | .reservedSpecial1e a => specialWords 0x1e a
  | .cme a => specialWords 0x1f a
  | .hlt v => impliedWords 0x00 v
  | .slp v => impliedWords 0x01 v
  | .sfr v => impliedWords 0x02 v
  | .reservedImplied03 v => impliedWords 0x03 v
  | .byt v => impliedWords 0x04 v
  | .reservedImplied05 v => impliedWords 0x05 v
  | .reservedImplied06 v => impliedWords 0x06 v
  | .reservedImplied07 v => impliedWords 0x07 v
  | .reservedImplied08 v => impliedWords 0x08 v
  | .reservedImplied09 v => impliedWords 0x09 v
  | .reservedImplied0a v => impliedWords 0x0a v
  | .reservedImplied0b v => impliedWords 0x0b v
  | .reservedImplied0c v => impliedWords 0x0c v
  | .reservedImplied0d v => impliedWords 0x0d v
  | .reservedImplied0e v => impliedWords 0x0e v
  | .reservedImplied0f v => impliedWords 0x0f v
  | .skp v => impliedWords 0x10 v
  | .reservedImplied11 v => impliedWords 0x11 v
  | .reservedImplied12 v => impliedWords 0x12 v
  | .reservedImplied13 v => impliedWords 0x13 v
  | .reservedImplied14 v => impliedWords 0x14 v
  | .reservedImplied15 v => impliedWords 0x15 v
  | .reservedImplied16 v => impliedWords 0x16 v
  | .reservedImplied17 v => impliedWords 0x17 v
  | .reservedImplied18 v => impliedWords 0x18 v
  | .reservedImplied19 v => impliedWords 0x19 v
  | .reservedImplied1a v => impliedWords 0x1a v
  | .reservedImplied1b v => impliedWords 0x1b v
  | .reservedImplied1c v => impliedWords 0x1c v
  | .reservedImplied1d v => impliedWords 0x1d v
  | .reservedImplied1e v => impliedWords 0x1e v
  | .reservedImplied1f v => impliedWords 0x1f v

/-- The bytes of an instruction as they lie in memory: each word low octet first (R43). -/
def encodeBytes (i : Instr) : List Byte :=
  (encode i).flatMap fun w => [lowOctet w, highOctet w]

/-! ## An instruction given as the opcode table numbers its bits -/

/-- The `k` lowest bytes of a number, least significant first. -/
def bytesOfNat : Nat → Nat → List Byte
  | 0, _ => []
  | k + 1, w => BitVec.ofNat 8 w :: bytesOfNat k (w / 256)

/-- The six bytes, three words, of an instruction whose `nbits` table bits are `w`: bit 0 is the least significant bit
of the first word, and every bit above `nbits` is 0. -/
def tableBytes (nbits w : Nat) : List Byte :=
  bytesOfNat 6 (w % 2 ^ nbits)

/-- What the decoder reads from an instruction given as the opcode table numbers its bits. -/
def decodeTableWord (nbits w : Nat) : Option Instr :=
  match decode (tableBytes nbits w) with
  | .ok (i, _) => some i
  | .error _ => none

end Sys2Proof
end

