-- ==== Sys2Proof/Config.lean ====
section
/-! DEFINITION. What the spec leaves to the platform: the parameters of a run (`Config`, plain data that State
carries and no step changes), the transactions the CPU makes with devices, the changes a Core Memory Heater may make, and
the free values: what an I/O port answers, what a device on the memory bus reads as, and what a write to the bus that RAM
does not take does to memory (spec/92_eei_decisions.md D9, D21, D22, D23). What the heater does where the platform does
not say so is free as well (`Config.heaterEffect` in Machine/State.lean, since it may depend on the whole state). -/

namespace Sys2Proof.Machine

/-- The operating mode (R18): in Native an address names an octet, in Compatible a word. -/
inductive Mode where
  | native | compatible
deriving DecidableEq, Repr

/-- The run state RUN (R23, R336). -/
inductive RunState where
  | running | halted | sleeping
deriving DecidableEq, Repr

end Sys2Proof.Machine

namespace Sys2Proof

/-- One transaction of the CPU with the devices, in the order made (log 20).
`ioWrite` and `ioRead` are the transfers of R190, `memRead` is an octet read from a device on the memory bus and
`memWrite` an octet written to an address of it that is not RAM (R52),
`heater` is the write of the Core Memory Heater function control register (R206, log 18), `reset` is the reset of all
attached hardware (R353). -/
inductive BusEvent where
  | ioWrite (port value : Word)
  | ioRead (port : Word)
  | memRead (address : PAddr)
  | memWrite (address : PAddr) (octet : Byte)
  | heater (value : Word)
  | reset
deriving DecidableEq, Repr

/-- What a range of physical addresses holds (R52). RAM takes what is written and reads as it holds. ROM reads as it holds.
`device` is a device register and also an address with nothing behind it: what it reads as is free. What a write to ROM
or to a device does is free. -/
inductive RegionKind where
  | ram | rom | device
deriving DecidableEq, Repr

/-- A range of the physical memory map: `size` octets from `base` on (R52, D22). -/
structure Region where
  base : Nat
  size : Nat
  kind : RegionKind
deriving DecidableEq, Repr

/-- `PhysBus`: the physical memory map and what the hardware on the memory bus does at a reset (D22; log 19). -/
structure PhysBus where
  /-- The first region an address lies in says what it holds; an address in none is RAM (U8's closed system). -/
  regions : List Region
  /-- `PhysBus.reset`: the octets of memory a reset sets; every other one keeps its contents (R353, D18). -/
  onReset : List (PAddr × Byte)
deriving DecidableEq, Repr

/-- One change that the Core Memory Heater may make to the machine (D21: any effect). HCR is what HCF wrote (R206), and BYT
is off after HCF as after every instruction that is not conditional (R268). -/
inductive StateChange where
  | octet (address : PAddr) (value : Byte)
  | reg (r : Reg) (v : Word)
  | pc (v : Word)
  | sp (v : Word)
  | ex (v : Word)
  | ia (v : Word)
  | ova (v : Word)
  | ovm (v : Word)
  | page (b : Block) (p : Page)
  | mode (m : Machine.Mode)
  | queue (messages : List Word)
  | queuing (on : Bool)
  | run (r : Machine.RunState)
deriving DecidableEq, Repr

/-- The parameters the computer system fixes for a run.
DESIGN CHOICE: held in State, so that a claim about every state holds for every platform (log 7, log 18, log 19,
log 21). -/
structure Config where
  /-- `EMU_RESET`: the page each block is mapped to by a reset (R352, D23). -/
  emuReset : Vector Page 16
  /-- `ExInSigned`: ADX and SBX read the old EX as signed (D9, U4); the spec's reading is false. -/
  exInSigned : Bool
  /-- `PhysBus` (D22). -/
  physBus : PhysBus
  /-- `HeaterHook`, as far as the platform says it: the changes the Core Memory Heater makes for a value written to HCR.
  For a value that is not listed the effect is free, `Config.heaterEffect` (D21, U3; log 18). -/
  heaterHook : List (Word × List StateChange)
deriving DecidableEq, Repr

/-- The sequential layout the source names: block s is set to page s (R352). -/
def Config.sequentialPages : Vector Page 16 :=
  Vector.ofFn fun s => BitVec.ofNat 12 s.val

/-- The default parameters: the sequential EMU layout (R352), the unsigned reading of EX (D9), plain RAM everywhere that
a reset leaves alone (U8, R353) and a heater of which nothing is known (D21, log 18). -/
def Config.default : Config :=
  { emuReset := Config.sequentialPages
    exInSigned := false
    physBus := { regions := [], onReset := [] }
    heaterHook := [] }

/-- FREE VALUE: the 16-bit value a port answers to an I/O read, from the turn of the cycle, the transactions made before
and the port (R190: it "belongs to the platform parameter"; log 20). -/
opaque Config.ioRead : Nat → List BusEvent → Word → Word

/-- FREE VALUE: the octet a device or an unpopulated address on the memory bus reads as, from the turn of the cycle, the
transactions made before, reads among them, and the address (R52, D22; log 37). -/
opaque Config.deviceOctet : Nat → List BusEvent → PAddr → Byte

/-- FREE VALUE: the octets of memory that are set by a write to ROM or to a device, from the turn of the cycle and the
transactions made, the write being the last: R52's write "may change memory or device state" (D22; log 37). -/
opaque Config.writeEffect : Nat → List BusEvent → List (PAddr × Byte)

/-- The number of messages the interrupt queue may hold (R306). -/
abbrev Config.queueCapacity : Nat := 256

end Sys2Proof
end

