-- ==== Sys2Proof/Machine/State.lean ====
section
/-! DEFINITION. The state of one DCPU-16N (spec/10_state.md), as plain data, and the state after reset
(spec/70_reset_and_hazards.md R350). The last four fields are the model's own (INVENTORY.md). -/

namespace Sys2Proof.Machine

/-- The byte-mask state BYT (R22): which octet of the next direct output is protected. -/
inductive ByteMask where
  | off | protectLow | protectHigh
deriving DecidableEq, Repr

/-- What the platform does at an instruction boundary: raise a hardware interrupt with a message (R303), assert reset
(R350), or let a device set an octet of memory on its own (U8, R54; log 22). -/
inductive PlatformEvent where
  | interrupt (message : Word)
  | reset
  | store (address : PAddr) (octet : Byte)
deriving DecidableEq, Repr

/-- Why a step can stop with a fault. These are the two points where the spec gives the machine no continuation
(R301); neither is a hardware event. -/
inductive Fault where
  /-- Raised by the meaning of every reserved opcode when it is performed (R83). Safe: hardware does something
  unknown there, and the model claims nothing. -/
  | reservedOpcode
  /-- Raised by INT, by HLT and by an arriving hardware interrupt when the queue already holds 256 messages (R306).
  Safe: the source gives no behaviour to continue with. -/
  | queueOverflow
deriving DecidableEq, Repr

/-- Why a step can be refused. -/
inductive Refusal where
  /-- Raised by an arm of `exec` whose instruction has no meaning yet. Safe. No arm of this model uses it. -/
  | notModelled (mnemonic : String)
deriving DecidableEq, Repr

/-- Physical memory: the octets that differ from what an unlisted address reads as, by rising address (log 19). -/
abbrev Memory := List Host.Cell

/-- The state of the machine (10_state.md section 1), and the model's own fields. -/
structure State where
  /-- A, B, C, X, Y, Z, I, J (R10). -/
  regs : Vector Word 8
  /-- The program counter (R11). -/
  pc : Word
  /-- The stack pointer (R12). -/
  sp : Word
  /-- The ALU high word, extra or excess (R13). -/
  ex : Word
  /-- The interrupt address; 0 means interrupts are not enabled (R14). -/
  ia : Word
  /-- The OS vector address; 0 means OS vector calls are disabled (R15). -/
  ova : Word
  /-- The OS vector memory page, `ppppppppppppssss` (R16). -/
  ovm : Word
  /-- The Extended Memory Unit: the page of each block (R17). -/
  emu : Vector Page 16
  /-- The operating mode (R18). -/
  mode : Mode
  /-- The interrupt queue, oldest message first (R19). -/
  iq : List Word
  /-- The interrupt-queuing flag (R20). -/
  qf : Bool
  /-- The skipping flag (R21); set only while a skip goes on beyond one step (log 24). -/
  skip : Bool
  /-- The byte-mask state (R22). -/
  byt : ByteMask
  /-- The run state (R23). -/
  run : RunState
  /-- The Core Memory Heater function control register (R24). -/
  hcr : Word
  /-- What RAM and ROM hold in the physical address space (R27, R52). -/
  mem : Memory
  /-- MODEL: the platform's parameters (D9, D21, D22, D23); no step changes them. -/
  cfg : Config
  /-- MODEL: what the platform does at the coming boundaries, one list a boundary (R303; log 22). -/
  inputs : List (List PlatformEvent)
  /-- MODEL: the transactions made with devices, oldest first (R52, R190, R206, R353; log 20). -/
  busLog : List BusEvent
  /-- MODEL: how many turns of the cycle began, an argument of the free values (log 37). -/
  turns : Nat
deriving DecidableEq, Repr

/-- What an instruction boundary comes to (R100): the machine stops, no instruction is performed in this cycle, or
one instruction is performed next. -/
inductive Boundary where
  | stop (f : Fault)
  | idle (s : State)
  | perform (s : State)
deriving DecidableEq, Repr

/-- The machine right after a reset or power-on with the platform `c` and the memory contents `m` (R350, R352, R353):
Native mode, the platform's EMU layout, everything else zero, empty, off or Running (decision D1; log 1). What RAM holds
at power-on is part of the state a run is given (R353, U8: any value). -/
def State.powerOn (c : Config) (m : Memory) : State :=
  { regs := Vector.replicate 8 0
    pc := 0, sp := 0, ex := 0, ia := 0, ova := 0, ovm := 0
    emu := c.emuReset
    mode := .native
    iq := [], qf := false, skip := false, byt := .off, run := .running
    hcr := 0
    mem := m
    cfg := c
    inputs := [], busLog := [], turns := 0 }

/-- The machine right after reset with the default platform, memory with nothing listed (log 19). -/
def State.reset : State := State.powerOn Config.default []

end Sys2Proof.Machine

namespace Sys2Proof

/-- FREE VALUE: what the Core Memory Heater does for a value written to HCR, in the state once it is written: any changes to
any part of the machine, in order (D21, U3, R206; log 18). No claim can be made about it. -/
opaque Config.heaterEffect : Machine.State → Word → List StateChange

end Sys2Proof
end

