-- ==== Sys2Proof/Machine/Memory.lean ====
section
/-! DEFINITION. Physical memory (spec/20_memory.md R52; 92_eei_decisions.md D22, U8): what RAM and ROM hold in the 2^24
octets, as the list of the octets that differ from what an unlisted address reads as, by strictly rising address; and
what an address holds on the platform's memory map. -/

namespace Sys2Proof.Machine

/-- What an unlisted address reads as. DESIGN CHOICE: the spec leaves the contents of RAM at power-on to the
platform (R353); the model takes 0 (log 19, unsafe). -/
def unlistedOctet : Byte := 0

/-- The number of physical octets, 2^24 (R27). -/
def physicalOctets : Nat := 2 ^ 24

/-- The canonical form: addresses strictly rising and physical, no entry equal to what an unlisted address reads. -/
abbrev Memory.wf (m : Memory) : Prop :=
  m.Pairwise (fun c d => c.1 < d.1) ∧ ∀ c ∈ m, c.1 < physicalOctets ∧ c.2 ≠ unlistedOctet

/-- The octet at a physical address. -/
def Memory.read : Memory → Nat → Byte
  | [], _ => unlistedOctet
  | c :: m, a => if c.1 = a then c.2 else Memory.read m a

/-- Puts an entry in its place by address. -/
def Memory.insert (a : Nat) (v : Byte) : Memory → Memory
  | [] => [(a, v)]
  | c :: m => if a < c.1 then (a, v) :: c :: m else c :: Memory.insert a v m

/-- The memory without an entry at `a`. -/
def Memory.erase (m : Memory) (a : Nat) : Memory :=
  m.filter fun c => c.1 != a

/-- The memory with octet `v` at address `a`; writing what an unlisted address reads as lists nothing. -/
def Memory.write (m : Memory) (a : Nat) (v : Byte) : Memory :=
  if v = unlistedOctet then Memory.erase m a else Memory.insert a v (Memory.erase m a)

/-- Several octets written in order. -/
def Memory.writeAll (m : Memory) : List (PAddr × Byte) → Memory
  | [] => m
  | c :: l => Memory.writeAll (Memory.write m c.1.toNat c.2) l

/-- What a physical address holds: what the first region it lies in says, RAM where it lies in none (R52, D22). -/
def kindIn : List Region → Nat → RegionKind
  | [], _ => .ram
  | r :: rs, a => if r.base ≤ a ∧ a < r.base + r.size then r.kind else kindIn rs a

end Sys2Proof.Machine
end

