-- ==== Sys2Proof/Machine/Ops.lean ====
section
/-! DEFINITION. The named operations over the state: registers, address translation (spec/20_memory.md R40 to R47),
the stack (spec/40_execution_and_operands.md R114), the I/O bus (spec/43_basic_io.md R190), the interrupt queue,
interrupt entry and return, OS vector calls and their return (spec/60_exceptions.md), the mode switch
(spec/45_special_system.md R248) and reset (spec/70_reset_and_hazards.md R350, R353). -/

namespace Sys2Proof.Machine

/-! ## Registers and flags: one setter for each field an instruction changes -/

/-- The index of a general register, its number (R10). -/
def regIndex (r : Reg) : Fin 8 := (regNumber r).toFin

/-- General register `r` (R10). -/
def State.reg (s : State) (r : Reg) : Word := s.regs[regIndex r]

/-- Writes general register `r` (R10). -/
def State.setReg (s : State) (r : Reg) (v : Word) : State := { s with regs := s.regs.set (regIndex r) v }

/-- Writes PC (R11). -/
def State.setPc (s : State) (v : Word) : State := { s with pc := v }

/-- Writes SP (R12). -/
def State.setSp (s : State) (v : Word) : State := { s with sp := v }

/-- Writes EX (R13). -/
def State.setEx (s : State) (v : Word) : State := { s with ex := v }

/-- Writes IA (R14). -/
def State.setIa (s : State) (v : Word) : State := { s with ia := v }

/-- Writes OVA (R15). -/
def State.setOva (s : State) (v : Word) : State := { s with ova := v }

/-- Writes OVM (R16). -/
def State.setOvm (s : State) (v : Word) : State := { s with ovm := v }

/-- The page block `b` is mapped to, `EMU[b]` (R17). -/
def State.page (s : State) (b : Block) : Page := s.emu[b.toFin]

/-- Maps block `b` to a page; all 12 bits are stored in both modes (R17, D32; log 28). -/
def State.setPage (s : State) (b : Block) (p : Page) : State := { s with emu := s.emu.set b.toFin p }

/-- Sets MODE (R18). -/
def State.setMode (s : State) (m : Mode) : State := { s with mode := m }

/-- Sets the interrupt queue (R19). -/
def State.setIq (s : State) (q : List Word) : State := { s with iq := q }

/-- Sets the queuing flag QF (R20). -/
def State.setQf (s : State) (b : Bool) : State := { s with qf := b }

/-- Sets the skipping flag (R21). -/
def State.setSkip (s : State) (b : Bool) : State := { s with skip := b }

/-- Sets the byte mask (R22). -/
def State.setByt (s : State) (m : ByteMask) : State := { s with byt := m }

/-- Sets the run state (R23). -/
def State.setRun (s : State) (r : RunState) : State := { s with run := r }

/-- Writes HCR (R24). -/
def State.setHcr (s : State) (v : Word) : State := { s with hcr := v }

/-- Records a transaction with a device (log 20). -/
def State.logBus (s : State) (e : BusEvent) : State := { s with busLog := s.busLog ++ [e] }

/-- Begins a turn of the cycle: the next of the coming boundaries is taken, the turn counted (log 22, log 37). -/
def State.beginTurn (s : State) : State := { s with inputs := s.inputs.tail, turns := s.turns + 1 }

/-- `W`, the step of one word in addresses: 2 in Native mode, 1 in Compatible mode (R3). -/
def State.wordStep (s : State) : Word :=
  match s.mode with
  | .native => 2
  | .compatible => 1

/-- The end of an instruction that is not conditional and not BYT: BYT goes off (R101 step 9, R268). -/
def State.endInstr (s : State) : State := s.setByt .off

/-! ## Address translation -/

/-- The block a virtual address lies in, bits 15:12 (R41, R42). -/
def blockOf (va : Word) : Block := va.extractLsb' 12 4

/-- The offset in the block, bits 11:0 (R41, R42). -/
def offsetOf (va : Word) : BitVec 12 := va.extractLsb' 0 12

/-- `PA_native`: the page in bits 23:12, the offset in bits 11:0 (R41). -/
def State.nativeAddr (s : State) (va : Word) : PAddr := s.page (blockOf va) ++ offsetOf va

/-- `PA_compat`: EMU bits 11:1 in 23:13, the offset in 12:1, bit 0 clear (R42). -/
def State.compatAddr (s : State) (va : Word) : PAddr :=
  (s.page (blockOf va)).extractLsb' 1 11 ++ offsetOf va ++ 0#1

/-- The physical address of the low octet of the word at `va` (R44, R45). -/
def State.lowAddr (s : State) (va : Word) : PAddr :=
  match s.mode with
  | .native => s.nativeAddr va
  | .compatible => s.compatAddr va

/-- The physical address of the high octet of the word at `va`: in Native mode the octet at virtual `va + 1`,
translated on its own (R44, D2; log 2); in Compatible mode the next physical octet (R42, D30; log 28). -/
def State.highAddr (s : State) (va : Word) : PAddr :=
  match s.mode with
  | .native => s.nativeAddr (va + 1)
  | .compatible => s.compatAddr va + 1

/-! ## Memory -/

/-- What the platform has at a physical address (R52, D22). -/
def State.kindAt (s : State) (p : PAddr) : RegionKind := kindIn s.cfg.physBus.regions p.toNat

/-- `PhysBus.read(p)`: the octet at a physical address, `Phys[p]` (R45). RAM and ROM read as they hold; what a device
answers is free, and hangs on every transaction made before (R52; log 37). -/
def State.octet (s : State) (p : PAddr) : Byte :=
  match s.kindAt p with
  | .device => Config.deviceOctet s.turns s.busLog p
  | .ram | .rom => Memory.read s.mem p.toNat

/-- The transactions that reading the octets at these addresses makes: one for each that lies in a device (R52; log 20). -/
def State.readEvents (s : State) (l : List PAddr) : List BusEvent :=
  (l.filter fun p => s.kindAt p == .device).map .memRead

/-- The read of octets as the devices see it: it is recorded, and so may change what they answer later (R52; log 20). -/
def State.noteRead (s : State) (l : List PAddr) : State := { s with busLog := s.busLog ++ s.readEvents l }

/-- `PhysBus.write(p, octet)`: RAM takes the octet. A write to ROM or to a device is recorded, and may set any octets of
memory (R52; log 19, log 37). -/
def State.setOctet (s : State) (p : PAddr) (v : Byte) : State :=
  { s with
    mem :=
      if s.kindAt p = .ram then Memory.write s.mem p.toNat v
      else Memory.writeAll s.mem (Config.writeEffect s.turns (s.busLog ++ [.memWrite p v]))
    busLog := if s.kindAt p = .ram then s.busLog else s.busLog ++ [.memWrite p v] }

/-- The octets of memory the platform sets by itself, in order: a device (U8), the heater (D21), a reset (R353). -/
def State.storeOctets (s : State) (l : List (PAddr × Byte)) : State := { s with mem := Memory.writeAll s.mem l }

/-- The two octets of the word at `va`, with their physical addresses (R44, R45). -/
def State.wordCells (s : State) (va v : Word) : List (PAddr × Byte) :=
  [(s.lowAddr va, lowOctet v), (s.highAddr va, highOctet v)]

/-- The physical addresses of the two octets of the word at `va`, in the order they are read and written (R45, R46). -/
def State.wordAddrs (s : State) (va : Word) : List PAddr := [s.lowAddr va, s.highAddr va]

/-- The value of `MemRead(va, 2)`: the word at a virtual address, its low octet read before its high one (R45). -/
def State.readWord (s : State) (va : Word) : Word :=
  joinOctets (s.octet (s.lowAddr va)) ((s.noteRead [s.lowAddr va]).octet (s.highAddr va))

/-- The state after `MemRead(va, 2)` (R45, R52). -/
def State.afterRead (s : State) (va : Word) : State := s.noteRead (s.wordAddrs va)

/-- `Fetch()`: the word at PC was read, PC is past it (R88). The word itself comes from the decoder (log 35). -/
def State.pastWord (s : State) : State := (s.afterRead s.pc).setPc (s.pc + s.wordStep)

/-- `MemWrite(va, 1L, v)`: only the low octet of the word at `va` (R47). -/
def State.writeLow (s : State) (va v : Word) : State := s.setOctet (s.lowAddr va) (lowOctet v)

/-- `MemWrite(va, 1H, v)`: only the high octet of the word at `va` (R47). -/
def State.writeHigh (s : State) (va v : Word) : State := s.setOctet (s.highAddr va) (highOctet v)

/-- `MemWrite(va, 2, v)`: both octets of the word at `va` (R46). -/
def State.writeWord (s : State) (va v : Word) : State := (s.writeLow va v).writeHigh va v

/-! ## The stack -/

/-- `Push(v)`: SP lowered by one word, then a whole word written at SP, never masked (R114). -/
def State.push (s : State) (v : Word) : State :=
  (s.setSp (s.sp - s.wordStep)).writeWord (s.sp - s.wordStep) v

/-- `Pop()`: the word at SP, and SP raised by one word (R114). -/
def State.pop (s : State) : Word × State :=
  (s.readWord s.sp, (s.afterRead s.sp).setSp (s.sp + s.wordStep))

/-! ## The I/O bus and the heater -/

/-- `IoWrite(p, v)`: the transfer is recorded; what the device does is the platform's (R190; log 20). -/
def State.ioWrite (s : State) (port v : Word) : State := s.logBus (.ioWrite port v)

/-- `IoRead(p)`: a free value, and the transfer recorded (R190; log 20). -/
def State.ioRead (s : State) (port : Word) : Word × State :=
  (Config.ioRead s.turns s.busLog port, s.logBus (.ioRead port))

/-- One change made by the heater. The queue holds no more than it can (R306). -/
def State.change (s : State) : StateChange → State
  | .octet p v => s.storeOctets [(p, v)]
  | .reg r v => s.setReg r v
  | .pc v => s.setPc v
  | .sp v => s.setSp v
  | .ex v => s.setEx v
  | .ia v => s.setIa v
  | .ova v => s.setOva v
  | .ovm v => s.setOvm v
  | .page b p => s.setPage b p
  | .mode m => s.setMode m
  | .queue ms => s.setIq (ms.take Config.queueCapacity)
  | .queuing b => s.setQf b
  | .run r => s.setRun r

/-- Several changes in order. -/
def State.changeAll : State → List StateChange → State
  | s, [] => s
  | s, c :: cs => (s.change c).changeAll cs

/-- `HeaterHook(v)`: what the platform says its heater does for the setting `v`, and a free effect where it says nothing
(D21, U3; log 18). -/
def State.heaterEffect (s : State) (v : Word) : List StateChange :=
  match s.cfg.heaterHook.find? fun h => h.1 == v with
  | some h => h.2
  | none => Config.heaterEffect s v

/-- `HCR <- v; HeaterHook(v)`: the register is written, the write recorded, and the heater acts (R206, D21; log 18). -/
def State.setHeater (s : State) (v : Word) : State :=
  let t := (s.setHcr v).logBus (.heater v)
  t.changeAll (t.heaterEffect v)

/-! ## The interrupt queue, interrupt entry and return -/

/-- `Enqueue(m)`: appends a message, or nothing where the queue would pass 256 entries (R304, R306, D12, D13;
log 10, log 11). -/
def State.enqueue (s : State) (m : Word) : Option State :=
  if s.iq.length < Config.queueCapacity then some (s.setIq (s.iq ++ [m])) else none

/-- `InterruptEntry(m)`: queuing on, PC then A pushed, PC to IA, the message in A (R310). -/
def State.interruptEntry (s : State) (m : Word) : State :=
  let s₁ := (s.setQf true).push s.pc
  let s₂ := s₁.push (s₁.reg .a)
  (s₂.setPc s₂.ia).setReg .a m

/-- Return from interrupt: queuing off, A popped, then PC (R223, R313). -/
def State.interruptReturn (s : State) : State :=
  let p := (s.setQf false).pop
  let q := (p.2.setReg .a p.1).pop
  q.2.setPc q.1

/-! ## OS vector calls and their return -/

/-- The block number in OVM, bits 3:0 (R16). -/
def blockField (v : Word) : Block := v.extractLsb' 0 4

/-- The page number in OVM, bits 15:4 (R16). -/
def pageField (v : Word) : Page := v.extractLsb' 4 12

/-- A page and a block packed as `ppppppppppppssss` (R16). -/
def packPage (p : Page) (b : Block) : Word := p ++ b

/-- Exchanges the page in OVM with the EMU entry of the block in OVM (R320, R240). -/
def State.exchangePage (s : State) : State :=
  (s.setPage (blockField s.ovm) (pageField s.ovm)).setOvm
    (packPage (s.page (blockField s.ovm)) (blockField s.ovm))

/-- `OsVectorCall(n, m)`: nothing where OVA is 0; else PC, A, B pushed, the page exchanged, the message in A, the
number in B, PC to OVA (R320, R321). QF is untouched (D25; log 23). -/
def State.osVectorCall (s : State) (n m : Word) : State :=
  if s.ova = 0 then s
  else
    let s₁ := s.push s.pc
    let s₂ := s₁.push (s₁.reg .a)
    let s₃ := (s₂.push (s₂.reg .b)).exchangePage
    ((s₃.setReg .a m).setReg .b n).setPc s₃.ova

/-- Return from an OS vector call: the exchange, then B, A and PC popped (R240, R322). -/
def State.osVectorReturn (s : State) : State :=
  let p := s.exchangePage.pop
  let q := (p.2.setReg .b p.1).pop
  let r := (q.2.setReg .a q.1).pop
  r.2.setPc r.1

/-! ## The mode switch -/

/-- One register from Native to Compatible: shifted right by one, bit 15 from bit 0 of its block's EMU entry
(R248, D16; log 14). -/
def State.toCompatible (s : State) (r : Word) : Word :=
  (s.page (blockOf r)).extractLsb' 0 1 ++ r.extractLsb' 1 15

/-- One register from Compatible to Native: shifted left by one (R248). -/
def toNative (r : Word) : Word := r.extractLsb' 0 15 ++ 0#1

/-- The switch to Compatible mode: PC, SP, IA and OVA, each from its own old value (R248). -/
def State.enterCompatible (s : State) : State :=
  ((((s.setPc (s.toCompatible s.pc)).setSp (s.toCompatible s.sp)).setIa (s.toCompatible s.ia)).setOva
    (s.toCompatible s.ova)).setMode .compatible

/-- The switch to Native mode (R248). -/
def State.enterNative (s : State) : State :=
  ((((s.setPc (toNative s.pc)).setSp (toNative s.sp)).setIa (toNative s.ia)).setOva
    (toNative s.ova)).setMode .native

/-- CME's effect: a switch for the two keys, where the mode is the other one; nothing else (R248, D16). -/
def State.switchMode (s : State) (key : Word) : State :=
  if key = 0x5555 ∧ s.mode = .native then s.enterCompatible
  else if key = 0xaaaa ∧ s.mode = .compatible then s.enterNative
  else s

/-! ## Reset -/

/-- `Reset()` and `ResetHardware()`: the CPU's state as R350 lists it, the EMU as the platform's `EMU_RESET` says
(R352), the reset of the devices recorded (R353). Memory keeps its contents but for what the platform's `PhysBus.reset`
sets (R353, D18; log 16); the platform's coming events and the model's own count go on. -/
def State.resetAll (s : State) : State :=
  { State.powerOn s.cfg (Memory.writeAll s.mem s.cfg.physBus.onReset) with
    inputs := s.inputs
    busLog := s.busLog ++ [.reset]
    turns := s.turns }

end Sys2Proof.Machine
end

