-- ==== Sys2Proof/Machine/Cycle.lean ====
section
/-! DEFINITION. The machine cycle around an instruction (spec/40_execution_and_operands.md R100): what arrives at a
boundary, sleeping and halting (spec/46_implied.md R261, R263), delivering at most one interrupt (spec/60_exceptions.md
R308), and skipping (spec/42_basic_conditional.md R178). -/

namespace Sys2Proof.Machine

/-! ## Skipping -/

/-- `k` words as an address distance, `k * W` (R70, R178). -/
def State.wordsStep (s : State) (k : Nat) : Word := BitVec.ofNat 16 k * s.wordStep

/-- PC past the instruction it points at: its first word alone is read (R75, R178, D29; log 27). -/
def State.pastInstr (s : State) : State :=
  (s.afterRead s.pc).setPc (s.pc + s.wordsStep (instrLength (s.readWord s.pc)))

/-- The loop of `Skip()`, at most `fuel` instructions long (R178). Where the fuel ends inside a chain the state is
still skipping. -/
def skipLoop : Nat → State → State
  | 0, s => s.setSkip true
  | fuel + 1, s =>
    if isConditionalWord (s.readWord s.pc) then skipLoop fuel s.pastInstr
    else (s.pastInstr.setSkip false).setByt .off

/-- How many instructions one step skips at most: one for each value of PC. A chain in RAM or ROM that visits more never
ends (log 24). -/
def skipFuel : Nat := 65536

/-- `Skip()`: passes over instructions until one that is not conditional was passed over, then BYT is off
(R178, R180). -/
def State.skipChain (s : State) : State := skipLoop skipFuel s

/-! ## The boundary -/

/-- One event of the platform. An interrupt is queued (R303), but is ignored by a halted CPU (R261; log 29); a reset
is the event of R350; a device's store sets an octet of memory (U8). -/
def State.accept (s : State) : PlatformEvent → Option State
  | .reset => some s.resetAll
  | .store p v => some (s.storeOctets [(p, v)])
  | .interrupt m => if s.run = .halted then some s else s.enqueue m

/-- The events of one boundary, in the platform's order (R303, R307). -/
def State.acceptAll : State → List PlatformEvent → Option State
  | s, [] => some s
  | s, e :: es =>
    match s.accept e with
    | some t => t.acceptAll es
    | none => none

/-- The beginning of a turn: what arrives at this boundary, taken off `inputs`; nothing where none is scheduled (R303;
log 22). -/
def State.arrivals (s : State) : Option State := s.beginTurn.acceptAll (s.inputs.headD [])

/-- Phase 1 of the cycle: at most one message leaves the queue, while QF and BYT are off; it is entered where IA is
not 0 and dropped where it is (R100, R305, R308, R310, R311). -/
def State.deliver (s : State) : State :=
  match s.iq with
  | [] => s
  | m :: rest =>
    if s.qf = false ∧ s.byt = .off then
      if s.ia ≠ 0 then (s.setIq rest).interruptEntry m else s.setIq rest
    else s

/-- A boundary of a sleeping CPU: it wakes where a message can be triggered with interrupts enabled, drops one where
they are not enabled, else stays as it is (R263, D17; log 15). -/
def State.sleepBoundary (s : State) : Boundary :=
  match s.iq with
  | [] => .idle s
  | _ :: rest =>
    if s.qf then .idle s
    else if s.ia ≠ 0 then .perform (s.setRun .running).deliver
    else .idle (s.setIq rest)

/-- The cycle up to the fetch (R100, R308): arrivals, then an unfinished skip, the halted or sleeping states, then
delivery. -/
def State.boundary (s : State) : Boundary :=
  match s.arrivals with
  | none => .stop .queueOverflow
  | some t =>
    if t.skip then .idle t.skipChain
    else
      match t.run with
      | .halted => .idle t
      | .sleeping => t.sleepBoundary
      | .running => .perform t.deliver

end Sys2Proof.Machine
end

