-- ==== Sys2Proof/Machine/Operands.lean ====
section
/-! DEFINITION. Operand handling (spec/40_execution_and_operands.md R101 to R113): the place an operand names, how the
a and the b field resolve to a place, reads, and the direct output under the byte mask; then the shapes of R101 that
the meanings share. -/

namespace Sys2Proof.Machine

/-- Where an operand is (R102). -/
inductive Place where
  | reg (r : Reg)
  | mem (va : Word)
  | sp
  | pc
  | ex
  | lit (n : Word)
deriving DecidableEq, Repr

/-- The operands that resolve alike in both fields; code 0x18 is given as what it is in its field (R103, R104).
An operand with a next word moves PC past it (R88). -/
def State.resolveWith (s : State) (stack : Place × State) : Operand → Place × State
  | .reg r => (.reg r, s)
  | .ind r => (.mem (s.reg r), s)
  | .indNext r n => (.mem (s.reg r + n), s.pastWord)
  | .stack => stack
  | .peek => (.mem s.sp, s)
  | .pick n => (.mem (s.sp + n), s.pastWord)
  | .sp => (.sp, s)
  | .pc => (.pc, s)
  | .ex => (.ex, s)
  | .absolute n => (.mem n, s.pastWord)
  | .literal n => (.lit n, s.pastWord)
  | .inline n => (.lit n, s)

/-- `ResolveA`: code 0x18 is POP, the word at SP, SP raised (R103). -/
def State.resolveA (s : State) (a : Operand) : Place × State :=
  s.resolveWith (.mem s.sp, s.setSp (s.sp + s.wordStep)) a

/-- `ResolveB`: code 0x18 is PUSH, SP lowered, the word at the new SP (R104). -/
def State.resolveB (s : State) (b : Operand) : Place × State :=
  s.resolveWith (.mem (s.sp - s.wordStep), s.setSp (s.sp - s.wordStep)) b

/-- `ReadOp`: the value of a place, never masked (R102, R105). -/
def State.readPlace (s : State) : Place → Word
  | .reg r => s.reg r
  | .mem va => s.readWord va
  | .sp => s.sp
  | .pc => s.pc
  | .ex => s.ex
  | .lit n => n

/-- The physical octets a place has in memory (R102). -/
def State.placeAddrs (s : State) : Place → List PAddr
  | .mem va => s.wordAddrs va
  | _ => []

/-- The state after `ReadOp`: a device at the place may have been changed by the read (R105, R52). -/
def State.afterReadPlace (s : State) (p : Place) : State := s.noteRead (s.placeAddrs p)

/-- A new value merged into an old one under the mask (R106). -/
def mergeMasked (mask : ByteMask) (old v : Word) : Word :=
  match mask with
  | .off => v
  | .protectHigh => joinOctets (lowOctet v) (highOctet old)
  | .protectLow => joinOctets (lowOctet old) (highOctet v)

/-- The masked write of a memory word: both octets, or one of them (R106, R47). -/
def State.writeMasked (s : State) (mask : ByteMask) (va v : Word) : State :=
  match mask with
  | .off => s.writeWord va v
  | .protectHigh => s.writeLow va v
  | .protectLow => s.writeHigh va v

/-- `WriteOp`: the direct output of an instruction, the only write the mask narrows; a literal takes nothing
(R106, R79, D15; log 13). -/
def State.writeOp (s : State) (mask : ByteMask) (p : Place) (v : Word) : State :=
  match p with
  | .reg r => s.setReg r (mergeMasked mask (s.reg r) v)
  | .mem va => s.writeMasked mask va v
  | .sp => s.setSp (mergeMasked mask s.sp v)
  | .pc => s.setPc (mergeMasked mask s.pc v)
  | .ex => s.setEx (mergeMasked mask s.ex v)
  | .lit _ => s

/-! ## The shapes of R101

An instruction starts with PC at its first word. `afterA` is the state after step 1, `readA` after step 2, and `afterB` and
`readB` after steps 3 and 4 of a basic instruction. Every basic instruction reads a (R113). -/

/-- The place of operand a (step 1). -/
def State.placeA (s : State) (a : Operand) : Place := (s.pastWord.resolveA a).1

/-- The state after a is resolved: the first word and a's next word fetched, POP applied (step 1). -/
def State.afterA (s : State) (a : Operand) : State := (s.pastWord.resolveA a).2

/-- The value of operand a, read before b is handled (step 2, D3; log 3). -/
def State.valueA (s : State) (a : Operand) : Word := (s.afterA a).readPlace (s.placeA a)

/-- The state after a is read (step 2). -/
def State.readA (s : State) (a : Operand) : State := (s.afterA a).afterReadPlace (s.placeA a)

/-- The place of operand b, resolved after a was read (step 3). -/
def State.placeB (s : State) (b a : Operand) : Place := ((s.readA a).resolveB b).1

/-- The state after b is resolved: PC past every word of the instruction, PUSH applied (step 3). -/
def State.afterB (s : State) (b a : Operand) : State := ((s.readA a).resolveB b).2

/-- The value of operand b (step 4). -/
def State.valueB (s : State) (b a : Operand) : Word := (s.afterB b a).readPlace (s.placeB b a)

/-- The state after b is read (step 4), in an instruction that reads it (R113). -/
def State.readB (s : State) (b a : Operand) : State := (s.afterB b a).afterReadPlace (s.placeB b a)

/-- A basic instruction that writes the value of a to b, which it does not read (R101 steps 1 to 3, 6 and 9; R113, D5). -/
def State.moveOp (s : State) (b a : Operand) : State :=
  ((s.afterB b a).writeOp s.byt (s.placeB b a) (s.valueA a)).endInstr

/-- A basic instruction that writes b with `res valB valA` and nothing else (R101 steps 1 to 6 and 9). -/
def State.basicOp (s : State) (res : Word → Word → Word) (b a : Operand) : State :=
  ((s.readB b a).writeOp s.byt (s.placeB b a) (res (s.valueB b a) (s.valueA a))).endInstr

/-- A basic instruction that writes b, then EX, both computed from the operands before any write
(R101 steps 1 to 7 and 9, R160). -/
def State.basicOpEx (s : State) (res ex : Word → Word → Word) (b a : Operand) : State :=
  (((s.readB b a).writeOp s.byt (s.placeB b a) (res (s.valueB b a) (s.valueA a))).setEx
    (ex (s.valueB b a) (s.valueA a))).endInstr

/-- A conditional instruction: skips where the test of valB and valA fails, and leaves BYT alone
(42_basic_conditional.md section 1, R180). -/
def State.conditionalOp (s : State) (test : Word → Word → Bool) (b a : Operand) : State :=
  if test (s.valueB b a) (s.valueA a) then s.readB b a else (s.readB b a).skipChain

/-- A special instruction that writes its own operand with a value, from its operand read before (R101 special steps 1 to
4, R107). -/
def State.specialReadWrite (s : State) (v : Word) (a : Operand) : State :=
  ((s.readA a).writeOp s.byt (s.placeA a) v).endInstr

/-- A special instruction that writes its own operand without reading it (R101, R107, R113, D5). -/
def State.specialWrite (s : State) (v : Word) (a : Operand) : State :=
  ((s.afterA a).writeOp s.byt (s.placeA a) v).endInstr

end Sys2Proof.Machine
end

