-- ==== Sys2Proof/Machine/Alu.lean ====
section
/-! DEFINITION. The basic instructions for data movement and arithmetic (spec/41_basic_alu.md R140 to R158). -/

namespace Sys2Proof.Machine

/-- `SET b, a`: sets b to a (R140). -/
def execSet (b a : Operand) (s : State) : Host.Outcome State Fault Refusal :=
  .next (s.moveOp b a)

/-- `ADD b, a`: sets b to b + a and EX to the carry (R141). -/
def execAdd (b a : Operand) (s : State) : Host.Outcome State Fault Refusal :=
  .next (s.basicOpEx addRes addEx b a)

/-- `SUB b, a`: sets b to b - a and EX to the borrow (R142). -/
def execSub (b a : Operand) (s : State) : Host.Outcome State Fault Refusal :=
  .next (s.basicOpEx subRes subEx b a)

/-- `MUL b, a`: sets b and EX to the low and the high word of the unsigned product (R143). -/
def execMul (b a : Operand) (s : State) : Host.Outcome State Fault Refusal :=
  .next (s.basicOpEx mulRes mulEx b a)

/-- `MLI b, a`: sets b and EX to the low and the high word of the signed product (R144). -/
def execMli (b a : Operand) (s : State) : Host.Outcome State Fault Refusal :=
  .next (s.basicOpEx mliRes mliEx b a)

/-- `DIV b, a`: sets b to the unsigned quotient and EX to its fraction, both to 0 where a is 0 (R145). -/
def execDiv (b a : Operand) (s : State) : Host.Outcome State Fault Refusal :=
  .next (s.basicOpEx divRes divEx b a)

/-- `DVI b, a`: sets b to the signed quotient and EX to its fraction, both to 0 where a is 0 (R146). -/
def execDvi (b a : Operand) (s : State) : Host.Outcome State Fault Refusal :=
  .next (s.basicOpEx dviRes dviEx b a)

/-- `MOD b, a`: sets b to the unsigned remainder, to 0 where a is 0 (R147). -/
def execMod (b a : Operand) (s : State) : Host.Outcome State Fault Refusal :=
  .next (s.basicOp modRes b a)

/-- `MDI b, a`: sets b to the signed remainder, to 0 where a is 0 (R148). -/
def execMdi (b a : Operand) (s : State) : Host.Outcome State Fault Refusal :=
  .next (s.basicOp mdiRes b a)

/-- `AND b, a`: sets b to b & a (R149). -/
def execAnd (b a : Operand) (s : State) : Host.Outcome State Fault Refusal :=
  .next (s.basicOp andRes b a)

/-- `BOR b, a`: sets b to b | a (R150). -/
def execBor (b a : Operand) (s : State) : Host.Outcome State Fault Refusal :=
  .next (s.basicOp borRes b a)

/-- `XOR b, a`: sets b to b ^ a (R151). -/
def execXor (b a : Operand) (s : State) : Host.Outcome State Fault Refusal :=
  .next (s.basicOp xorRes b a)

/-- `SHR b, a`: shifts b right logically, the bits shifted out go to EX (R152). -/
def execShr (b a : Operand) (s : State) : Host.Outcome State Fault Refusal :=
  .next (s.basicOpEx shrRes shrEx b a)

/-- `ASR b, a`: shifts b right arithmetically, the bits shifted out go to EX (R153). -/
def execAsr (b a : Operand) (s : State) : Host.Outcome State Fault Refusal :=
  .next (s.basicOpEx asrRes asrEx b a)

/-- `SHL b, a`: shifts b left, the bits shifted out go to EX (R154). -/
def execShl (b a : Operand) (s : State) : Host.Outcome State Fault Refusal :=
  .next (s.basicOpEx shlRes shlEx b a)

/-- `ADX b, a`: sets b to b + a + EX and EX to the carry; EX is read before it is written (R155, D9; log 7). -/
def execAdx (b a : Operand) (s : State) : Host.Outcome State Fault Refusal :=
  .next (s.basicOpEx (adxRes s.cfg.exInSigned s.ex) (adxEx s.cfg.exInSigned s.ex) b a)

/-- `SBX b, a`: sets b to b - a + EX and EX to the borrow or the overflow; EX is read before it is written (R156, D9;
log 7). -/
def execSbx (b a : Operand) (s : State) : Host.Outcome State Fault Refusal :=
  .next (s.basicOpEx (sbxRes s.cfg.exInSigned s.ex) (sbxEx s.cfg.exInSigned s.ex) b a)

/-- I and J each moved by `d`, the step of STI and STD; never masked (R157, R158, R267). -/
def State.stepIJ (s : State) (d : Word) : State :=
  let t := s.setReg .i (s.reg .i + d)
  t.setReg .j (t.reg .j + d)

/-- `STI b, a`: sets b to a, then raises I and J by one word (R157). -/
def execSti (b a : Operand) (s : State) : Host.Outcome State Fault Refusal :=
  .next ((s.moveOp b a).stepIJ s.wordStep)

/-- `STD b, a`: sets b to a, then lowers I and J by one word (R158). -/
def execStd (b a : Operand) (s : State) : Host.Outcome State Fault Refusal :=
  .next ((s.moveOp b a).stepIJ (-s.wordStep))

end Sys2Proof.Machine
end

