-- ==== Sys2Proof/Machine/Conditional.lean ====
section
/-! DEFINITION. The conditional instructions (spec/42_basic_conditional.md R170 to R180). -/

namespace Sys2Proof.Machine

/-- `IFB b, a`: performs the next instruction only if (b & a) != 0 (R170). -/
def execIfb (b a : Operand) (s : State) : Host.Outcome State Fault Refusal :=
  .next (s.conditionalOp testIfb b a)

/-- `IFC b, a`: performs the next instruction only if (b & a) == 0 (R171). -/
def execIfc (b a : Operand) (s : State) : Host.Outcome State Fault Refusal :=
  .next (s.conditionalOp testIfc b a)

/-- `IFE b, a`: performs the next instruction only if b == a (R172). -/
def execIfe (b a : Operand) (s : State) : Host.Outcome State Fault Refusal :=
  .next (s.conditionalOp testIfe b a)

/-- `IFN b, a`: performs the next instruction only if b != a (R173). -/
def execIfn (b a : Operand) (s : State) : Host.Outcome State Fault Refusal :=
  .next (s.conditionalOp testIfn b a)

/-- `IFG b, a`: performs the next instruction only if b > a (R174). -/
def execIfg (b a : Operand) (s : State) : Host.Outcome State Fault Refusal :=
  .next (s.conditionalOp testIfg b a)

/-- `IFA b, a`: performs the next instruction only if b > a, signed (R175). -/
def execIfa (b a : Operand) (s : State) : Host.Outcome State Fault Refusal :=
  .next (s.conditionalOp testIfa b a)

/-- `IFL b, a`: performs the next instruction only if b < a (R176). -/
def execIfl (b a : Operand) (s : State) : Host.Outcome State Fault Refusal :=
  .next (s.conditionalOp testIfl b a)

/-- `IFU b, a`: performs the next instruction only if b < a, signed (R177). -/
def execIfu (b a : Operand) (s : State) : Host.Outcome State Fault Refusal :=
  .next (s.conditionalOp testIfu b a)

end Sys2Proof.Machine
end

