-- ==== Sys2Proof/Machine/Flow.lean ====
section
/-! DEFINITION. The calls and single-operand data operations (spec/44_special_flow_data.md R200 to R208). -/

namespace Sys2Proof.Machine

/-- `JSR a`: pushes the address of the next instruction, then PC to a, read before the push (R200). -/
def execJsr (a : Operand) (s : State) : Host.Outcome State Fault Refusal :=
  let t := s.readA a
  .next ((t.push t.pc).setPc (s.valueA a)).endInstr

/-- `BSR a`: pushes the address of the next instruction, then adds a to PC, unscaled (R201, D28; log 26). -/
def execBsr (a : Operand) (s : State) : Host.Outcome State Fault Refusal :=
  let t := s.readA a
  .next ((t.push t.pc).setPc (t.pc + s.valueA a)).endInstr

/-- `NEG a`: sets a to its negation (R205). -/
def execNeg (a : Operand) (s : State) : Host.Outcome State Fault Refusal :=
  .next (s.specialReadWrite (negRes (s.valueA a)) a)

/-- `HCF a`: writes the Core Memory Heater function control register (R206). What the heater does is
the platform's, and free where the platform does not say (D21; log 18). -/
def execHcf (a : Operand) (s : State) : Host.Outcome State Fault Refusal :=
  .next ((s.readA a).setHeater (s.valueA a)).endInstr

/-- `SXB a`: sign-extends the low octet of a (R207). -/
def execSxb (a : Operand) (s : State) : Host.Outcome State Fault Refusal :=
  .next (s.specialReadWrite (sxbRes (s.valueA a)) a)

/-- `SWP a`: exchanges the octets of a (R208). -/
def execSwp (a : Operand) (s : State) : Host.Outcome State Fault Refusal :=
  .next (s.specialReadWrite (swpRes (s.valueA a)) a)

end Sys2Proof.Machine
end

