-- ==== Sys2Proof/Machine/System.lean ====
section
/-! DEFINITION. Interrupt control, EMU access, OS vector calls and the mode switch (spec/45_special_system.md R220 to R248). -/

namespace Sys2Proof.Machine

/-- The end of an instruction that queued a message: the next state, or the fault of a full queue (R306). -/
def finishEnqueue : Option State → Host.Outcome State Fault Refusal
  | some t => .next t.endInstr
  | none => .fault .queueOverflow

/-- `INT a`: queues the message a (R220, R304); the 257th entry is the fault queueOverflow (R306). -/
def execInt (a : Operand) (s : State) : Host.Outcome State Fault Refusal :=
  finishEnqueue ((s.readA a).enqueue (s.valueA a))

/-- `IAG a`: sets a to IA; a is not read (R221). -/
def execIag (a : Operand) (s : State) : Host.Outcome State Fault Refusal :=
  .next (s.specialWrite s.ia a)

/-- `IAS a`: sets IA to a (R222). -/
def execIas (a : Operand) (s : State) : Host.Outcome State Fault Refusal :=
  .next ((s.readA a).setIa (s.valueA a)).endInstr

/-- `RFI a`: returns from an interrupt; a is resolved and read, its value not used (R223, D6; log 4). -/
def execRfi (a : Operand) (s : State) : Host.Outcome State Fault Refusal :=
  .next (s.readA a).interruptReturn.endInstr

/-- `IAQ a`: interrupt queuing on for a nonzero a, off for 0 (R224). -/
def execIaq (a : Operand) (s : State) : Host.Outcome State Fault Refusal :=
  .next ((s.readA a).setQf (s.valueA a != 0)).endInstr

/-- `MMW a`: maps block a[3:0] to page a[15:4] (R230). -/
def execMmw (a : Operand) (s : State) : Host.Outcome State Fault Refusal :=
  let v := s.valueA a
  .next ((s.readA a).setPage (blockField v) (pageField v)).endInstr

/-- `MMR a`: sets a to the page of block a[3:0], in bits 15:4, with bits 3:0 clear (R231). -/
def execMmr (a : Operand) (s : State) : Host.Outcome State Fault Refusal :=
  .next (s.specialReadWrite (packPage (s.page (blockField (s.valueA a))) 0) a)

/-- `OSN a`: OS vector call 0x0010 with message a (R236, R320, R321). -/
def execOsn (a : Operand) (s : State) : Host.Outcome State Fault Refusal :=
  .next ((s.readA a).osVectorCall 0x0010 (s.valueA a)).endInstr

/-- `OSQ a`: OS vector call 0x0011 with message a (R237, R320, R321). -/
def execOsq (a : Operand) (s : State) : Host.Outcome State Fault Refusal :=
  .next ((s.readA a).osVectorCall 0x0011 (s.valueA a)).endInstr

/-- `OSI a`: OS vector call 0x0012 with message a (R238, R320, R321). -/
def execOsi (a : Operand) (s : State) : Host.Outcome State Fault Refusal :=
  .next ((s.readA a).osVectorCall 0x0012 (s.valueA a)).endInstr

/-- `OSR a`: OS vector call 0x0013 with message a (R239, R320, R321). -/
def execOsr (a : Operand) (s : State) : Host.Outcome State Fault Refusal :=
  .next ((s.readA a).osVectorCall 0x0013 (s.valueA a)).endInstr

/-- `RFO a`: returns from an OS vector call; a is resolved and read, its value not used (R240, D6; log 4). -/
def execRfo (a : Operand) (s : State) : Host.Outcome State Fault Refusal :=
  .next (s.readA a).osVectorReturn.endInstr

/-- `OMG a`: sets a to OVM; a is not read (R241). -/
def execOmg (a : Operand) (s : State) : Host.Outcome State Fault Refusal :=
  .next (s.specialWrite s.ovm a)

/-- `OMS a`: sets OVM to a (R242). -/
def execOms (a : Operand) (s : State) : Host.Outcome State Fault Refusal :=
  .next ((s.readA a).setOvm (s.valueA a)).endInstr

/-- `OVG a`: sets a to OVA; a is not read (R243). -/
def execOvg (a : Operand) (s : State) : Host.Outcome State Fault Refusal :=
  .next (s.specialWrite s.ova a)

/-- `OVS a`: sets OVA to a (R244). -/
def execOvs (a : Operand) (s : State) : Host.Outcome State Fault Refusal :=
  .next ((s.readA a).setOva (s.valueA a)).endInstr

/-- `CME a`: switches the operating mode for the keys 0x5555 and 0xAAAA (R248, D16; log 14). -/
def execCme (a : Operand) (s : State) : Host.Outcome State Fault Refusal :=
  .next ((s.readA a).switchMode (s.valueA a)).endInstr

end Sys2Proof.Machine
end

