-- ==== Sys2Proof/Machine/Implied.lean ====
section
/-! DEFINITION. The implied instructions (spec/46_implied.md R260 to R270). Only BYT uses the flag v (R73). -/

namespace Sys2Proof.Machine

/-- `HLT`: queues message 0 where interrupts are enabled, else halts (R260, D11; log 9). -/
def execHlt (_v : Bool) (s : State) : Host.Outcome State Fault Refusal :=
  if s.ia ≠ 0 then finishEnqueue (s.pastWord.enqueue 0)
  else .next (s.pastWord.setRun .halted).endInstr

/-- `SLP`: sleeps until an interrupt is triggered (R262, R263). -/
def execSlp (_v : Bool) (s : State) : Host.Outcome State Fault Refusal :=
  .next (s.pastWord.setRun .sleeping).endInstr

/-- `SFR`: resets the CPU and the attached hardware (R264, R350, R353). -/
def execSfr (_v : Bool) (s : State) : Host.Outcome State Fault Refusal :=
  .next s.pastWord.resetAll

/-- The mask state after a BYT: off where a mask was in effect, else the one v selects (R266). -/
def bytAfter (m : ByteMask) (v : Bool) : ByteMask :=
  match m with
  | .off => if v then .protectHigh else .protectLow
  | _ => .off

/-- `BYT v`: protects an octet of the next direct output, or ends a mask in effect (R266). -/
def execByt (v : Bool) (s : State) : Host.Outcome State Fault Refusal :=
  .next (s.pastWord.setByt (bytAfter s.byt v))

/-- `SKP`: skips the next instruction, through a chain of conditionals (R270, D14; log 12). -/
def execSkp (_v : Bool) (s : State) : Host.Outcome State Fault Refusal :=
  .next s.pastWord.skipChain.endInstr

end Sys2Proof.Machine
end

