-- ==== Sys2Proof/Machine/Io.lean ====
section
/-! DEFINITION. The I/O bus instructions (spec/43_basic_io.md R191, R192). -/

namespace Sys2Proof.Machine

/-- `HWW b, a`: writes the value of a to the port b names; the transfer is a whole word under every mask (R191, D15). -/
def execHww (b a : Operand) (s : State) : Host.Outcome State Fault Refusal :=
  .next ((s.readB b a).ioWrite (s.valueB b a) (s.valueA a)).endInstr

/-- `HWR b, a`: reads the port a names, after b is resolved, and stores the value in b (R192). The value is free
(log 20). -/
def execHwr (b a : Operand) (s : State) : Host.Outcome State Fault Refusal :=
  let r := (s.afterB b a).ioRead (s.valueA a)
  .next (r.2.writeOp s.byt (s.placeB b a) r.1).endInstr

end Sys2Proof.Machine
end

