-- ==== Sys2Proof/Machine/Reserved.lean ====
section
/-! DEFINITION. The reserved opcodes (spec/30_encoding.md R83): performing one is a fault, since the spec gives it no effect
(D7, U1; log 5). -/

namespace Sys2Proof.Machine

/-- Reserved basic opcode 0x18 (R83). -/
def execReservedBasic18 (_b _a : Operand) (_s : State) : Host.Outcome State Fault Refusal :=
  .fault .reservedOpcode

/-- Reserved basic opcode 0x19 (R83). -/
def execReservedBasic19 (_b _a : Operand) (_s : State) : Host.Outcome State Fault Refusal :=
  .fault .reservedOpcode

/-- Reserved special opcode 0x03 (R83). -/
def execReservedSpecial03 (_a : Operand) (_s : State) : Host.Outcome State Fault Refusal :=
  .fault .reservedOpcode

/-- Reserved special opcode 0x04 (R83). -/
def execReservedSpecial04 (_a : Operand) (_s : State) : Host.Outcome State Fault Refusal :=
  .fault .reservedOpcode

/-- Reserved special opcode 0x06 (R83). -/
def execReservedSpecial06 (_a : Operand) (_s : State) : Host.Outcome State Fault Refusal :=
  .fault .reservedOpcode

/-- Reserved special opcode 0x0d (R83). -/
def execReservedSpecial0d (_a : Operand) (_s : State) : Host.Outcome State Fault Refusal :=
  .fault .reservedOpcode

/-- Reserved special opcode 0x16 (R83). -/
def execReservedSpecial16 (_a : Operand) (_s : State) : Host.Outcome State Fault Refusal :=
  .fault .reservedOpcode

/-- Reserved special opcode 0x17 (R83). -/
def execReservedSpecial17 (_a : Operand) (_s : State) : Host.Outcome State Fault Refusal :=
  .fault .reservedOpcode

/-- Reserved special opcode 0x19 (R83). -/
def execReservedSpecial19 (_a : Operand) (_s : State) : Host.Outcome State Fault Refusal :=
  .fault .reservedOpcode

/-- Reserved special opcode 0x1e (R83). -/
def execReservedSpecial1e (_a : Operand) (_s : State) : Host.Outcome State Fault Refusal :=
  .fault .reservedOpcode

/-- Reserved implied opcode 0x03 (R83). -/
def execReservedImplied03 (_v : Bool) (_s : State) : Host.Outcome State Fault Refusal :=
  .fault .reservedOpcode

/-- Reserved implied opcode 0x05 (R83). -/
def execReservedImplied05 (_v : Bool) (_s : State) : Host.Outcome State Fault Refusal :=
  .fault .reservedOpcode

/-- Reserved implied opcode 0x06 (R83). -/
def execReservedImplied06 (_v : Bool) (_s : State) : Host.Outcome State Fault Refusal :=
  .fault .reservedOpcode

/-- Reserved implied opcode 0x07 (R83). -/
def execReservedImplied07 (_v : Bool) (_s : State) : Host.Outcome State Fault Refusal :=
  .fault .reservedOpcode

/-- Reserved implied opcode 0x08 (R83). -/
def execReservedImplied08 (_v : Bool) (_s : State) : Host.Outcome State Fault Refusal :=
  .fault .reservedOpcode

/-- Reserved implied opcode 0x09 (R83). -/
def execReservedImplied09 (_v : Bool) (_s : State) : Host.Outcome State Fault Refusal :=
  .fault .reservedOpcode

/-- Reserved implied opcode 0x0a (R83). -/
def execReservedImplied0a (_v : Bool) (_s : State) : Host.Outcome State Fault Refusal :=
  .fault .reservedOpcode

/-- Reserved implied opcode 0x0b (R83). -/
def execReservedImplied0b (_v : Bool) (_s : State) : Host.Outcome State Fault Refusal :=
  .fault .reservedOpcode

/-- Reserved implied opcode 0x0c (R83). -/
def execReservedImplied0c (_v : Bool) (_s : State) : Host.Outcome State Fault Refusal :=
  .fault .reservedOpcode

/-- Reserved implied opcode 0x0d (R83). -/
def execReservedImplied0d (_v : Bool) (_s : State) : Host.Outcome State Fault Refusal :=
  .fault .reservedOpcode

/-- Reserved implied opcode 0x0e (R83). -/
def execReservedImplied0e (_v : Bool) (_s : State) : Host.Outcome State Fault Refusal :=
  .fault .reservedOpcode

/-- Reserved implied opcode 0x0f (R83). -/
def execReservedImplied0f (_v : Bool) (_s : State) : Host.Outcome State Fault Refusal :=
  .fault .reservedOpcode

/-- Reserved implied opcode 0x11 (R83). -/
def execReservedImplied11 (_v : Bool) (_s : State) : Host.Outcome State Fault Refusal :=
  .fault .reservedOpcode

/-- Reserved implied opcode 0x12 (R83). -/
def execReservedImplied12 (_v : Bool) (_s : State) : Host.Outcome State Fault Refusal :=
  .fault .reservedOpcode

/-- Reserved implied opcode 0x13 (R83). -/
def execReservedImplied13 (_v : Bool) (_s : State) : Host.Outcome State Fault Refusal :=
  .fault .reservedOpcode

/-- Reserved implied opcode 0x14 (R83). -/
def execReservedImplied14 (_v : Bool) (_s : State) : Host.Outcome State Fault Refusal :=
  .fault .reservedOpcode

/-- Reserved implied opcode 0x15 (R83). -/
def execReservedImplied15 (_v : Bool) (_s : State) : Host.Outcome State Fault Refusal :=
  .fault .reservedOpcode

/-- Reserved implied opcode 0x16 (R83). -/
def execReservedImplied16 (_v : Bool) (_s : State) : Host.Outcome State Fault Refusal :=
  .fault .reservedOpcode

/-- Reserved implied opcode 0x17 (R83). -/
def execReservedImplied17 (_v : Bool) (_s : State) : Host.Outcome State Fault Refusal :=
  .fault .reservedOpcode

/-- Reserved implied opcode 0x18 (R83). -/
def execReservedImplied18 (_v : Bool) (_s : State) : Host.Outcome State Fault Refusal :=
  .fault .reservedOpcode

/-- Reserved implied opcode 0x19 (R83). -/
def execReservedImplied19 (_v : Bool) (_s : State) : Host.Outcome State Fault Refusal :=
  .fault .reservedOpcode

/-- Reserved implied opcode 0x1a (R83). -/
def execReservedImplied1a (_v : Bool) (_s : State) : Host.Outcome State Fault Refusal :=
  .fault .reservedOpcode

/-- Reserved implied opcode 0x1b (R83). -/
def execReservedImplied1b (_v : Bool) (_s : State) : Host.Outcome State Fault Refusal :=
  .fault .reservedOpcode

/-- Reserved implied opcode 0x1c (R83). -/
def execReservedImplied1c (_v : Bool) (_s : State) : Host.Outcome State Fault Refusal :=
  .fault .reservedOpcode

/-- Reserved implied opcode 0x1d (R83). -/
def execReservedImplied1d (_v : Bool) (_s : State) : Host.Outcome State Fault Refusal :=
  .fault .reservedOpcode

/-- Reserved implied opcode 0x1e (R83). -/
def execReservedImplied1e (_v : Bool) (_s : State) : Host.Outcome State Fault Refusal :=
  .fault .reservedOpcode

/-- Reserved implied opcode 0x1f (R83). -/
def execReservedImplied1f (_v : Bool) (_s : State) : Host.Outcome State Fault Refusal :=
  .fault .reservedOpcode

end Sys2Proof.Machine
end

