-- ==== Sys2Proof/Machine/Fetch.lean ====
section
/-! DEFINITION. Fetching an instruction (spec/30_encoding.md R74, R88; spec/40_execution_and_operands.md R101): the words
at PC, each as it reads at the moment the instruction fetches it. -/

namespace Sys2Proof.Machine

/-- The words at PC, of which an instruction uses one to three (R70, R88). The word after the first is read once the first
was fetched. Operand a is then handled, and read, before a word is fetched for operand b (R59, R101, D3): this matters
only to devices, since nothing else is changed by a read. -/
def State.codeWords (s : State) : Word × Word × Word :=
  let w := s.readWord s.pc
  let n := s.pastWord.readWord s.pastWord.pc
  let t := s.readA (operandOfCode (aField w) n)
  if codeHasNext (aField w) then (w, n, t.readWord t.pc)
  else (w, t.readWord t.pc, t.pastWord.readWord t.pastWord.pc)

/-- The bytes of those words as the decoder takes them, each word low octet first (R43). -/
def State.codeBytes (s : State) : List Byte :=
  [s.codeWords.1, s.codeWords.2.1, s.codeWords.2.2].flatMap fun w => [lowOctet w, highOctet w]

/-- The instruction at PC (R74, R88). That its words are read is noted where its meaning passes over them,
`State.pastWord`. -/
def State.fetchInstr (s : State) : Instr := decodeWords s.codeWords.1 s.codeWords.2.1 s.codeWords.2.2

/-- The state with the words of `tableBytes nbits w` in the memory at PC, RAM or ROM, where the next fetch reads them. -/
def State.placeInstr (s : State) (nbits w : Nat) : State :=
  match takeWords 3 (tableBytes nbits w) with
  | some ([w₀, w₁, w₂], _) =>
    s.storeOctets (s.wordCells s.pc w₀ ++ s.wordCells (s.pc + s.wordsStep 1) w₁ ++
      s.wordCells (s.pc + s.wordsStep 2) w₂)
  | _ => s

end Sys2Proof.Machine
end

