-- ==== Sys2Proof/Machine/Step.lean ====
section
/-! DEFINITION. One turn of the machine cycle (spec/40_execution_and_operands.md R100): the boundary, then at most one
instruction, fetched at PC. -/

namespace Sys2Proof.Machine

/-- One step: the boundary of R100, then the instruction at PC where one is performed. -/
def step (s : State) : Host.Outcome State Fault Refusal :=
  match s.boundary with
  | .stop f => .fault f
  | .idle t => .next t
  | .perform t => exec t.fetchInstr t

/-- The state with an instruction stored at PC, given as the opcode table numbers its bits (log 30). -/
def State.withFetchWord (s : State) (nbits w : Nat) : State := s.placeInstr nbits w

end Sys2Proof.Machine
end

