-- ==== Sys2Proof/Machine/Timing.lean ====
section
/-! DEFINITION. The cycle counts the spec gives (spec/70_reset_and_hazards.md R370 to R376), as functions of the
instruction. They are informative only: no rule reads a cycle count, so no state holds elapsed time (log 31). -/

namespace Sys2Proof.Machine

/-- Column C of the operand table (R371). -/
def operandCycles : Operand → Nat
  | .reg _ => 0
  | .ind _ => 1
  | .indNext _ _ => 2
  | .stack => 1
  | .peek => 1
  | .pick _ => 2
  | .sp => 0
  | .pc => 0
  | .ex => 0
  | .absolute _ => 2
  | .literal _ => 1
  | .inline _ => 0

/-- Column C of the opcode tables: none where the table gives no number, a conditional's count where its test passes
(R374, R375, R376). -/
def opcodeCycles : Instr → Option Nat
  | .set _ _ => some 1
  | .add _ _ => some 1
  | .sub _ _ => some 1
  | .mul _ _ => some 3
  | .mli _ _ => some 4
  | .div _ _ => some 11
  | .dvi _ _ => some 12
  | .mod _ _ => some 11
  | .mdi _ _ => some 12
  | .and _ _ => some 1
  | .bor _ _ => some 1
  | .xor _ _ => some 1
  | .shr _ _ => some 1
  | .asr _ _ => some 1
  | .shl _ _ => some 1
  | .ifb _ _ => some 2
  | .ifc _ _ => some 2
  | .ife _ _ => some 2
  | .ifn _ _ => some 2
  | .ifg _ _ => some 2
  | .ifa _ _ => some 2
  | .ifl _ _ => some 2
  | .ifu _ _ => some 2
  | .reservedBasic18 _ _ => none
  | .reservedBasic19 _ _ => none
  | .adx _ _ => some 2
  | .sbx _ _ => some 2
  | .hww _ _ => some 4
  | .hwr _ _ => some 4
  | .sti _ _ => some 1
  | .std _ _ => some 1
  | .jsr _ => some 3
  | .bsr _ => some 4
  | .reservedSpecial03 _ => none
  | .reservedSpecial04 _ => none
  | .neg _ => some 1
  | .reservedSpecial06 _ => none
  | .hcf _ => some 42
  | .int _ => some 4
  | .iag _ => some 1
  | .ias _ => some 1
  | .rfi _ => some 3
  | .iaq _ => some 2
  | .reservedSpecial0d _ => some 1
  | .mmw _ => some 3
  | .mmr _ => some 3
  | .osn _ => some 5
  | .osq _ => some 5
  | .osi _ => some 5
  | .osr _ => some 5
  | .sxb _ => some 1
  | .swp _ => some 1
  | .reservedSpecial16 _ => none
  | .reservedSpecial17 _ => none
  | .rfo _ => some 5
  | .reservedSpecial19 _ => none
  | .omg _ => some 1
  | .oms _ => some 1
  | .ovg _ => some 1
  | .ovs _ => some 1
  | .reservedSpecial1e _ => none
  | .cme _ => some 14
  | .hlt _ => some 4
  | .slp _ => some 3
  | .sfr _ => none
  | .reservedImplied03 _ => none
  | .byt _ => some 1
  | .reservedImplied05 _ => none
  | .reservedImplied06 _ => none
  | .reservedImplied07 _ => none
  | .reservedImplied08 _ => none
  | .reservedImplied09 _ => none
  | .reservedImplied0a _ => none
  | .reservedImplied0b _ => none
  | .reservedImplied0c _ => none
  | .reservedImplied0d _ => none
  | .reservedImplied0e _ => none
  | .reservedImplied0f _ => none
  | .skp _ => some 2
  | .reservedImplied11 _ => none
  | .reservedImplied12 _ => none
  | .reservedImplied13 _ => none
  | .reservedImplied14 _ => none
  | .reservedImplied15 _ => none
  | .reservedImplied16 _ => none
  | .reservedImplied17 _ => none
  | .reservedImplied18 _ => none
  | .reservedImplied19 _ => none
  | .reservedImplied1a _ => none
  | .reservedImplied1b _ => none
  | .reservedImplied1c _ => none
  | .reservedImplied1d _ => none
  | .reservedImplied1e _ => none
  | .reservedImplied1f _ => none

/-- The cycles of an instruction's own operands, a and b (R370). -/
def operandsCycles : Instr → Nat
  | .set b a => operandCycles a + operandCycles b
  | .add b a => operandCycles a + operandCycles b
  | .sub b a => operandCycles a + operandCycles b
  | .mul b a => operandCycles a + operandCycles b
  | .mli b a => operandCycles a + operandCycles b
  | .div b a => operandCycles a + operandCycles b
  | .dvi b a => operandCycles a + operandCycles b
  | .mod b a => operandCycles a + operandCycles b
  | .mdi b a => operandCycles a + operandCycles b
  | .and b a => operandCycles a + operandCycles b
  | .bor b a => operandCycles a + operandCycles b
  | .xor b a => operandCycles a + operandCycles b
  | .shr b a => operandCycles a + operandCycles b
  | .asr b a => operandCycles a + operandCycles b
  | .shl b a => operandCycles a + operandCycles b
  | .ifb b a => operandCycles a + operandCycles b
  | .ifc b a => operandCycles a + operandCycles b
  | .ife b a => operandCycles a + operandCycles b
  | .ifn b a => operandCycles a + operandCycles b
  | .ifg b a => operandCycles a + operandCycles b
  | .ifa b a => operandCycles a + operandCycles b
  | .ifl b a => operandCycles a + operandCycles b
  | .ifu b a => operandCycles a + operandCycles b
  | .reservedBasic18 b a => operandCycles a + operandCycles b
  | .reservedBasic19 b a => operandCycles a + operandCycles b
  | .adx b a => operandCycles a + operandCycles b
  | .sbx b a => operandCycles a + operandCycles b
  | .hww b a => operandCycles a + operandCycles b
  | .hwr b a => operandCycles a + operandCycles b
  | .sti b a => operandCycles a + operandCycles b
  | .std b a => operandCycles a + operandCycles b
  | .jsr a => operandCycles a
  | .bsr a => operandCycles a
  | .reservedSpecial03 a => operandCycles a
  | .reservedSpecial04 a => operandCycles a
  | .neg a => operandCycles a
  | .reservedSpecial06 a => operandCycles a
  | .hcf a => operandCycles a
  | .int a => operandCycles a
  | .iag a => operandCycles a
  | .ias a => operandCycles a
  | .rfi a => operandCycles a
  | .iaq a => operandCycles a
  | .reservedSpecial0d a => operandCycles a
  | .mmw a => operandCycles a
  | .mmr a => operandCycles a
  | .osn a => operandCycles a
  | .osq a => operandCycles a
  | .osi a => operandCycles a
  | .osr a => operandCycles a
  | .sxb a => operandCycles a
  | .swp a => operandCycles a
  | .reservedSpecial16 a => operandCycles a
  | .reservedSpecial17 a => operandCycles a
  | .rfo a => operandCycles a
  | .reservedSpecial19 a => operandCycles a
  | .omg a => operandCycles a
  | .oms a => operandCycles a
  | .ovg a => operandCycles a
  | .ovs a => operandCycles a
  | .reservedSpecial1e a => operandCycles a
  | .cme a => operandCycles a
  | .hlt _ => 0
  | .slp _ => 0
  | .sfr _ => 0
  | .reservedImplied03 _ => 0
  | .byt _ => 0
  | .reservedImplied05 _ => 0
  | .reservedImplied06 _ => 0
  | .reservedImplied07 _ => 0
  | .reservedImplied08 _ => 0
  | .reservedImplied09 _ => 0
  | .reservedImplied0a _ => 0
  | .reservedImplied0b _ => 0
  | .reservedImplied0c _ => 0
  | .reservedImplied0d _ => 0
  | .reservedImplied0e _ => 0
  | .reservedImplied0f _ => 0
  | .skp _ => 0
  | .reservedImplied11 _ => 0
  | .reservedImplied12 _ => 0
  | .reservedImplied13 _ => 0
  | .reservedImplied14 _ => 0
  | .reservedImplied15 _ => 0
  | .reservedImplied16 _ => 0
  | .reservedImplied17 _ => 0
  | .reservedImplied18 _ => 0
  | .reservedImplied19 _ => 0
  | .reservedImplied1a _ => 0
  | .reservedImplied1b _ => 0
  | .reservedImplied1c _ => 0
  | .reservedImplied1d _ => 0
  | .reservedImplied1e _ => 0
  | .reservedImplied1f _ => 0

/-- C(opcode) + C(a) + C(b): the cycles of an instruction at aligned addresses, a conditional's where its test passes
(R370, C9). -/
def instrCycles (i : Instr) : Option Nat :=
  (opcodeCycles i).map fun c => c + operandsCycles i

/-- What a failed test adds: one cycle, and one for each further conditional skipped in the chain (R370, R181). Whether the
next words of skipped instructions cost cycles the source does not say (R370, U17: any value). DESIGN CHOICE: none is
counted for them (log 31). -/
def failedTestCycles (furtherConditionals : Nat) : Nat := 1 + furtherConditionals

/-- What one word access adds at an address: one cycle where it is odd in Native mode (R372). -/
def unalignedCycles (m : Mode) (va : Word) : Nat :=
  match m with
  | .native => if va.getLsbD 0 then 1 else 0
  | .compatible => 0

end Sys2Proof.Machine
end

