-- ==== Sys2Proof/Safety.lean ====
section
/-! DEFINITION. The terms claims are stated in: the invariant of a safe run, where PC and SP stand once the operands
are handled, which octets a direct output stores to, and which instructions may change which part of the state. -/

namespace Sys2Proof.Safety

open Sys2Proof.Machine

/-- What every step keeps. Memory has its canonical form; the queue holds at most 256 messages (R19, R306); a CPU that is
not running has no byte mask in effect and skips nothing (R262, R263, R21). -/
abbrev Inv (s : State) : Prop :=
  s.mem.wf ∧ s.iq.length ≤ Config.queueCapacity ∧ (s.run ≠ .running → s.byt = .off ∧ s.skip = false)

/-- A halted CPU has interrupts not enabled (R260, R261). -/
abbrev HaltedDisabled (s : State) : Prop := s.run = .halted → s.ia = 0

/-- PC after `k` words of the instruction at PC were fetched (R88). -/
def pcAfter (s : State) (k : Nat) : Word := s.pc + BitVec.ofNat 16 k * s.wordStep

/-- SP once operand a is handled: POP raises it by one word (R103). -/
def spAfterA (s : State) (a : Operand) : Word := if a = .stack then s.sp + s.wordStep else s.sp

/-- SP once operand b is handled: PUSH lowers it by one word, after a was handled (R104, R111). -/
def spAfterB (s : State) (b a : Operand) : Word :=
  if b = .stack then spAfterA s a - s.wordStep else spAfterA s a

/-- The words of a basic instruction with these operands (R75). -/
def basicLength (b a : Operand) : Nat := 1 + (operandNext a).length + (operandNext b).length

/-- The words of a special instruction with this operand (R75). -/
def specialLength (a : Operand) : Nat := 1 + (operandNext a).length

/-- The reads of the first `k` words of the instruction at PC, as the devices see them (R88, R52). -/
def fetchEvents (s : State) (k : Nat) : List BusEvent :=
  (List.range k).flatMap fun j => s.readEvents (s.wordAddrs (pcAfter s j))

/-- The state once an instruction of one word that has no operand was fetched (R101). -/
def handledNone (s : State) : State := { s with pc := pcAfter s 1, busLog := s.busLog ++ fetchEvents s 1 }

/-- The state once operand a is resolved: PC past the first word and a's next word, POP applied, the fetches recorded
(R101, R103). -/
def handledA (s : State) (a : Operand) : State :=
  { s with
    pc := pcAfter s (specialLength a), sp := spAfterA s a
    busLog := s.busLog ++ fetchEvents s (specialLength a) }

/-- The state once operand a is read: a device at its place was read (R101, R105). -/
def readHandledA (s : State) (a : Operand) : State :=
  { handledA s a with busLog := (handledA s a).busLog ++ s.readEvents (s.placeAddrs (s.placeA a)) }

/-- The state once a was read and b is resolved: PC past all words, POP and PUSH applied, the fetch of b's next word
recorded (R101, R104). -/
def handledB (s : State) (b a : Operand) : State :=
  { s with
    pc := pcAfter s (basicLength b a), sp := spAfterB s b a
    busLog := (readHandledA s a).busLog ++
      (operandNext b).flatMap fun _ => s.readEvents (s.wordAddrs (pcAfter s (specialLength a))) }

/-- The state once both operands are read (R101, R105). -/
def readHandledB (s : State) (b a : Operand) : State :=
  { handledB s b a with busLog := (handledB s b a).busLog ++ s.readEvents (s.placeAddrs (s.placeB b a)) }

/-- The end of a basic instruction that writes `v` to b without reading b (R101 steps 6 and 9, R113). -/
def afterMoveB (s : State) (b a : Operand) (v : Word) : State :=
  { (handledB s b a).writeOp s.byt (s.placeB b a) v with byt := .off }

/-- The end of a basic instruction that reads b and writes `v` to it (R101 steps 6 and 9). -/
def afterOutputB (s : State) (b a : Operand) (v : Word) : State :=
  { (readHandledB s b a).writeOp s.byt (s.placeB b a) v with byt := .off }

/-- The end of a basic instruction that reads b and writes `v` to it, then `e` to EX (R101 steps 6, 7 and 9). -/
def afterOutputBEx (s : State) (b a : Operand) (v e : Word) : State :=
  { (readHandledB s b a).writeOp s.byt (s.placeB b a) v with ex := e, byt := .off }

/-- The end of a special instruction that writes `v` to its operand without reading it (R101, R113). -/
def afterMoveA (s : State) (a : Operand) (v : Word) : State :=
  { (handledA s a).writeOp s.byt (s.placeA a) v with byt := .off }

/-- The end of a special instruction that reads its operand and writes `v` to it (R101). -/
def afterOutputA (s : State) (a : Operand) (v : Word) : State :=
  { (readHandledA s a).writeOp s.byt (s.placeA a) v with byt := .off }

/-- The physical octets a direct output stores to: none for a register or a literal, both octets of the word without a
mask, one under a mask (R106, R47). -/
def storedOctets (s : State) (mask : ByteMask) : Place → List PAddr
  | .mem va =>
    match mask with
    | .off => [s.lowAddr va, s.highAddr va]
    | .protectHigh => [s.lowAddr va]
    | .protectLow => [s.highAddr va]
  | _ => []

/-- The two physical octets of the word at a virtual address (R44, R42). -/
def wordOctets (s : State) (va : Word) : List PAddr := [s.lowAddr va, s.highAddr va]

/-- Both octets of the word at a virtual address lie in RAM (R52). -/
abbrev ramWord (s : State) (va : Word) : Prop :=
  s.kindAt (s.lowAddr va) = .ram ∧ s.kindAt (s.highAddr va) = .ram

/-- All of these octets lie in RAM (R52). -/
def allRam (s : State) (l : List PAddr) : Prop := ∀ q ∈ l, s.kindAt q = .ram

/-- None of these octets lies in a device on the memory bus (R52). -/
def noDevice (s : State) (l : List PAddr) : Prop := ∀ q ∈ l, s.kindAt q ≠ .device

/-- No device is mapped into memory, and every address holds something (R52). -/
def noDeviceMapped (s : State) : Prop := ∀ q, s.kindAt q ≠ .device

/-- Two words share no physical octet. -/
def apart (s : State) (x y : Word) : Prop := ∀ q ∈ wordOctets s x, q ∉ wordOctets s y

/-- The address `k` words above a stack address. -/
def above (s : State) (sp : Word) (k : Nat) : Word := sp + BitVec.ofNat 16 k * s.wordStep

/-- The address `k` words below a stack address. -/
def below (s : State) (sp : Word) (k : Nat) : Word := sp - BitVec.ofNat 16 k * s.wordStep

/-- The state once an interrupt with message `m` was entered from `s`: queuing on, PC and A on the stack, PC at IA,
the message in A (R310). -/
def enteredInterrupt (s : State) (m : Word) : State :=
  let t := (s.writeWord (below s s.sp 1) s.pc).writeWord (below s s.sp 2) (s.reg .a)
  { t.setReg .a m with sp := below s s.sp 2, pc := s.ia, qf := true }

/-- The state once an OS vector call `n` with message `m` was entered from `s`, which stands after the calling
instruction: PC, A and B on the stack, OVM's page and the block's page exchanged, the message in A, the number in B, PC
at OVA (R320). -/
def enteredOsCall (s : State) (n m : Word) : State :=
  let t := ((s.writeWord (below s s.sp 1) s.pc).writeWord (below s s.sp 2) (s.reg .a)).writeWord (below s s.sp 3)
    (s.reg .b)
  { (t.setReg .a m).setReg .b n with
    sp := below s s.sp 3
    pc := s.ova
    emu := s.emu.set (blockField s.ovm).toFin (pageField s.ovm)
    ovm := packPage (s.page (blockField s.ovm)) (blockField s.ovm) }

/-- The state with the page in OVM and the page of OVM's block exchanged (R240). -/
def exchanged (s : State) : State :=
  { s with
    emu := s.emu.set (blockField s.ovm).toFin (pageField s.ovm)
    ovm := packPage (s.page (blockField s.ovm)) (blockField s.ovm) }

/-- The state right after a reset: R350's values, the platform's EMU layout, the octets its hardware sets, and the reset
of the devices recorded (R350, R352, R353). -/
def afterReset (s : State) : State :=
  { s with
    regs := Vector.replicate 8 0, pc := 0, sp := 0, ex := 0, ia := 0, ova := 0, ovm := 0
    emu := s.cfg.emuReset, mode := .native, iq := [], qf := false, skip := false, byt := .off
    run := .running, hcr := 0
    mem := Memory.writeAll s.mem s.cfg.physBus.onReset, busLog := s.busLog ++ [.reset] }

/-- Nothing arrives at the coming boundary; later ones may be scheduled (R303; log 22). -/
abbrev nothingArrives (s : State) : Prop := s.inputs.headD [] = []

/-- The state once a turn of the cycle began at which nothing arrives: the next of the coming boundaries is taken, and
the turn counted (log 22, log 37). -/
def turned (s : State) : State := { s with inputs := s.inputs.tail, turns := s.turns + 1 }

/-- The instructions of R113 that store nothing to memory by themselves: no direct output and no push. -/
def storesNothing : Instr → Bool
  | .ifb _ _ | .ifc _ _ | .ife _ _ | .ifn _ _ | .ifg _ _ | .ifa _ _ | .ifl _ _ | .ifu _ _ | .hww _ _ => true
  | .hcf _ | .int _ | .ias _ | .rfi _ | .iaq _ | .mmw _ | .rfo _ | .oms _ | .ovs _ | .cme _ => true
  | .hlt _ | .slp _ | .sfr _ | .byt _ | .skp _ => true
  | _ => false

/-- The state in which the heater acts: HCF's operand read, HCR written and the write recorded (R206). -/
def heaterSet (s : State) (a : Operand) : State :=
  { readHandledA s a with
    hcr := s.valueA a, busLog := (readHandledA s a).busLog ++ [.heater (s.valueA a)] }

/-- The octets of memory that a list of the heater's changes sets. -/
def changedOctets (cs : List StateChange) : List PAddr :=
  cs.flatMap fun c =>
    match c with
    | .octet p _ => [p]
    | _ => []

/-- The octets the platform's hardware sets in an instruction: the heater's for HCF (D21), a reset's for SFR (R353). -/
def platformStores (s : State) : Instr → List PAddr
  | .hcf a => changedOctets ((heaterSet s a).heaterEffect (s.valueA a))
  | .sfr _ => s.cfg.physBus.onReset.map Prod.fst
  | _ => []

/-- Does the test of a conditional instruction hold; no other instruction has one (R170 to R177). -/
def passes (s : State) : Instr → Bool
  | .ifb b a => decide (s.valueB b a &&& s.valueA a ≠ 0)
  | .ifc b a => decide (s.valueB b a &&& s.valueA a = 0)
  | .ife b a => decide (s.valueB b a = s.valueA a)
  | .ifn b a => decide (s.valueB b a ≠ s.valueA a)
  | .ifg b a => decide ((s.valueA a).toNat < (s.valueB b a).toNat)
  | .ifa b a => decide ((s.valueA a).toInt < (s.valueB b a).toInt)
  | .ifl b a => decide ((s.valueB b a).toNat < (s.valueA a).toNat)
  | .ifu b a => decide ((s.valueB b a).toInt < (s.valueA a).toInt)
  | _ => false

/-- The special registers, the EMU, the mode, the queue and its flag, the skipping flag, the run state, the heater
register and the model's own fields but the record of transactions are alike. -/
def sameSystem (s t : State) : Prop :=
  t.ia = s.ia ∧ t.ova = s.ova ∧ t.ovm = s.ovm ∧ t.emu = s.emu ∧ t.mode = s.mode ∧ t.iq = s.iq ∧ t.qf = s.qf ∧
    t.skip = s.skip ∧ t.run = s.run ∧ t.hcr = s.hcr ∧ t.cfg = s.cfg ∧ t.inputs = s.inputs ∧
    t.turns = s.turns

/-- The reserved opcodes (R83). -/
def isReserved : Instr → Bool
  | .reservedBasic18 _ _ | .reservedBasic19 _ _ | .reservedSpecial03 _ | .reservedSpecial04 _
  | .reservedSpecial06 _ | .reservedSpecial0d _ | .reservedSpecial16 _ | .reservedSpecial17 _
  | .reservedSpecial19 _ | .reservedSpecial1e _ | .reservedImplied03 _ | .reservedImplied05 _
  | .reservedImplied06 _ | .reservedImplied07 _ | .reservedImplied08 _ | .reservedImplied09 _
  | .reservedImplied0a _ | .reservedImplied0b _ | .reservedImplied0c _ | .reservedImplied0d _
  | .reservedImplied0e _ | .reservedImplied0f _ | .reservedImplied11 _ | .reservedImplied12 _
  | .reservedImplied13 _ | .reservedImplied14 _ | .reservedImplied15 _ | .reservedImplied16 _
  | .reservedImplied17 _ | .reservedImplied18 _ | .reservedImplied19 _ | .reservedImplied1a _
  | .reservedImplied1b _ | .reservedImplied1c _ | .reservedImplied1d _ | .reservedImplied1e _
  | .reservedImplied1f _ => true
  | _ => false

/-- The conditional instructions, basic opcodes 0x10 to 0x17. -/
def isConditional : Instr → Bool
  | .ifb _ _ | .ifc _ _ | .ife _ _ | .ifn _ _ | .ifg _ _ | .ifa _ _ | .ifl _ _ | .ifu _ _ => true
  | _ => false

/-- The instructions that write EX as a side effect (R13). -/
def writesEx : Instr → Bool
  | .add _ _ | .sub _ _ | .mul _ _ | .mli _ _ | .div _ _ | .dvi _ _ | .shr _ _ | .asr _ _ | .shl _ _ | .adx _ _
  | .sbx _ _ => true
  | _ => false

/-- What may change MODE: CME, and reset by SFR; the heater by HCF (R18; D21). -/
def mayChangeMode : Instr → Bool
  | .cme _ | .sfr _ | .hcf _ => true
  | _ => false

/-- What may change IA: IAS, CME, and reset by SFR; the heater by HCF (R14; D21). -/
def mayChangeIa : Instr → Bool
  | .ias _ | .cme _ | .sfr _ | .hcf _ => true
  | _ => false

/-- What may change OVA: OVS, CME, and reset by SFR; the heater by HCF (R15; D21). -/
def mayChangeOva : Instr → Bool
  | .ovs _ | .cme _ | .sfr _ | .hcf _ => true
  | _ => false

/-- What may change OVM: OMS, an OS vector call, RFO, and reset by SFR; the heater by HCF (R16; D21). -/
def mayChangeOvm : Instr → Bool
  | .oms _ | .osn _ | .osq _ | .osi _ | .osr _ | .rfo _ | .sfr _ | .hcf _ => true
  | _ => false

/-- What may change the EMU: MMW, an OS vector call, RFO, and reset by SFR; the heater by HCF (R17; D21). -/
def mayChangeEmu : Instr → Bool
  | .mmw _ | .osn _ | .osq _ | .osi _ | .osr _ | .rfo _ | .sfr _ | .hcf _ => true
  | _ => false

/-- What may change the interrupt queue inside an instruction: INT, HLT, and reset by SFR; the heater by HCF (R302,
R305; D21). -/
def mayChangeQueue : Instr → Bool
  | .int _ | .hlt _ | .sfr _ | .hcf _ => true
  | _ => false

/-- What may change QF inside an instruction: RFI, IAQ, and reset by SFR; the heater by HCF (R20; D21). -/
def mayChangeQf : Instr → Bool
  | .rfi _ | .iaq _ | .sfr _ | .hcf _ => true
  | _ => false

/-- What may change the run state inside an instruction: HLT, SLP, and reset by SFR; the heater by HCF (R23; D21). -/
def mayChangeRun : Instr → Bool
  | .hlt _ | .slp _ | .sfr _ | .hcf _ => true
  | _ => false

/-- What may change HCR: HCF, and reset by SFR (R24). -/
def mayChangeHcr : Instr → Bool
  | .hcf _ | .sfr _ => true
  | _ => false

/-- What makes a transaction with a device by itself, not by an access to the memory bus: HWW, HWR, HCF and SFR (R190,
R206, R353). -/
def mayTransfer : Instr → Bool
  | .hww _ _ | .hwr _ _ | .hcf _ | .sfr _ => true
  | _ => false

/-- Is an operand of the instruction EX itself (code 0x1d). -/
def namesEx : Instr → Bool
  | .set b a => b == .ex || a == .ex
  | .add b a => b == .ex || a == .ex
  | .sub b a => b == .ex || a == .ex
  | .mul b a => b == .ex || a == .ex
  | .mli b a => b == .ex || a == .ex
  | .div b a => b == .ex || a == .ex
  | .dvi b a => b == .ex || a == .ex
  | .mod b a => b == .ex || a == .ex
  | .mdi b a => b == .ex || a == .ex
  | .and b a => b == .ex || a == .ex
  | .bor b a => b == .ex || a == .ex
  | .xor b a => b == .ex || a == .ex
  | .shr b a => b == .ex || a == .ex
  | .asr b a => b == .ex || a == .ex
  | .shl b a => b == .ex || a == .ex
  | .ifb b a => b == .ex || a == .ex
  | .ifc b a => b == .ex || a == .ex
  | .ife b a => b == .ex || a == .ex
  | .ifn b a => b == .ex || a == .ex
  | .ifg b a => b == .ex || a == .ex
  | .ifa b a => b == .ex || a == .ex
  | .ifl b a => b == .ex || a == .ex
  | .ifu b a => b == .ex || a == .ex
  | .reservedBasic18 b a => b == .ex || a == .ex
  | .reservedBasic19 b a => b == .ex || a == .ex
  | .adx b a => b == .ex || a == .ex
  | .sbx b a => b == .ex || a == .ex
  | .hww b a => b == .ex || a == .ex
  | .hwr b a => b == .ex || a == .ex
  | .sti b a => b == .ex || a == .ex
  | .std b a => b == .ex || a == .ex
  | .jsr a => a == .ex
  | .bsr a => a == .ex
  | .reservedSpecial03 a => a == .ex
  | .reservedSpecial04 a => a == .ex
  | .neg a => a == .ex
  | .reservedSpecial06 a => a == .ex
  | .hcf a => a == .ex
  | .int a => a == .ex
  | .iag a => a == .ex
  | .ias a => a == .ex
  | .rfi a => a == .ex
  | .iaq a => a == .ex
  | .reservedSpecial0d a => a == .ex
  | .mmw a => a == .ex
  | .mmr a => a == .ex
  | .osn a => a == .ex
  | .osq a => a == .ex
  | .osi a => a == .ex
  | .osr a => a == .ex
  | .sxb a => a == .ex
  | .swp a => a == .ex
  | .reservedSpecial16 a => a == .ex
  | .reservedSpecial17 a => a == .ex
  | .rfo a => a == .ex
  | .reservedSpecial19 a => a == .ex
  | .omg a => a == .ex
  | .oms a => a == .ex
  | .ovg a => a == .ex
  | .ovs a => a == .ex
  | .reservedSpecial1e a => a == .ex
  | .cme a => a == .ex
  | _ => false

end Sys2Proof.Safety
end

