-- ==== Sys2Proof/Certificates/Slice0/Obligations.lean ====
section
/-! DEFINITION. The statements for the provers, in the order of the spec's files: encoding, operands and memory, then
the instructions by family, the cycle around them, the rules of the whole machine, and the memory bus. Each docstring
names the rule a statement formalises, and each DESIGN CHOICE or inference it rests on. -/

open Sys2Proof Sys2Proof.Machine Sys2Proof.Safety

/-! ## Encoding -/

/-- Decoding an encoded well-formed instruction gives it back with the bytes that follow, every operand at every value
its field admits (R70 to R77, R88). -/
def Obligations.DecodeOfEncode : Prop :=
  ∀ (i : Instr) (rest : List Byte), i.wellFormed = true → decode (encodeBytes i ++ rest) = .ok (i, rest)

/-- What the decoder reads is well formed and encodes to exactly the bytes it took, and the decoder refuses only bytes
that are shorter than the instruction they begin (R70, R74, R75): no first word is refused, and no bit is dropped. -/
def Obligations.EncodeOfDecode : Prop :=
  (∀ (bytes : List Byte) (i : Instr) (rest : List Byte), decode bytes = .ok (i, rest) →
      i.wellFormed = true ∧ encodeBytes i ++ rest = bytes) ∧
    ∀ (w : Word) (rest : List Byte), 2 * (instrLength w - 1) ≤ rest.length →
      ∃ i rest', decode (lowOctet w :: highOctet w :: rest) = .ok (i, rest')

/-- Words of 95_test_vectors.md section 2.1, laid out low octet first, decode to the instructions they stand for. -/
def Obligations.WrittenOutWordsDecode : Prop :=
  decode [0xc1, 0x7f, 0x20, 0x00, 0x00, 0x10] = .ok (.set (.absolute 0x1000) (.literal 0x0020), []) ∧
    decode [0x21, 0x40, 0x02, 0x00] = .ok (.set (.reg .b) (.indNext .a 0x0002), []) ∧
    decode [0x21, 0x80] = .ok (.set (.reg .b) (.inline 0xffff), []) ∧
    decode [0x01, 0x63] = .ok (.set .stack .stack, []) ∧
    decode [0x20, 0x7c, 0x00, 0x01] = .ok (.jsr (.literal 0x0100), []) ∧
    decode [0xe0, 0x7f, 0x55, 0x55] = .ok (.cme (.literal 0x5555), []) ∧
    decode [0x00, 0x90] = .ok (.byt true, []) ∧
    decode [0x00, 0x40] = .ok (.skp false, []) ∧
    decode [0xa0, 0x01] = .ok (.reservedSpecial0d (.reg .a), [])

/-- Performing any of the 37 reserved opcodes is the fault reservedOpcode, whatever its operands (R83; decision D7,
log 5). -/
def Obligations.ReservedOpcodesFault : Prop :=
  ∀ (i : Instr) (s : State), isReserved i = true → exec i s = .fault .reservedOpcode

/-! ## Operands -/

/-- The a operand: where each code points, what it reads, where PC and SP stand after it, and which devices its fetches and
its read reach (R103, R105, R110, R88, R52). A word that lies in no device reads as it did before. That a is read before b
is decision D3 (log 3), that the next word of [r + n] and of PICK is added unscaled is D28 (log 26), that an address wraps
at 16 bits is D2 (log 2), and that reads are recorded is the model's own (log 20). -/
def Obligations.OperandAResolves : Prop :=
  ∀ s : State,
    (∀ a, s.afterA a = handledA s a ∧ s.readA a = readHandledA s a) ∧
    (∀ a va, noDevice s (wordOctets s va) → (handledA s a).readWord va = s.readWord va) ∧
    (∀ r, s.placeA (.reg r) = .reg r ∧ s.valueA (.reg r) = s.reg r) ∧
    (∀ r, s.placeA (.ind r) = .mem (s.reg r) ∧ s.valueA (.ind r) = (handledA s (.ind r)).readWord (s.reg r)) ∧
    (∀ r n, s.placeA (.indNext r n) = .mem (s.reg r + n) ∧
      s.valueA (.indNext r n) = (handledA s (.indNext r n)).readWord (s.reg r + n)) ∧
    (s.placeA .stack = .mem s.sp ∧ s.valueA .stack = (handledA s .stack).readWord s.sp) ∧
    (s.placeA .peek = .mem s.sp ∧ s.valueA .peek = (handledA s .peek).readWord s.sp) ∧
    (∀ n, s.placeA (.pick n) = .mem (s.sp + n) ∧ s.valueA (.pick n) = (handledA s (.pick n)).readWord (s.sp + n)) ∧
    (s.placeA .sp = .sp ∧ s.valueA .sp = s.sp) ∧
    (s.placeA .pc = .pc ∧ s.valueA .pc = pcAfter s 1) ∧
    (s.placeA .ex = .ex ∧ s.valueA .ex = s.ex) ∧
    (∀ n, s.placeA (.absolute n) = .mem n ∧ s.valueA (.absolute n) = (handledA s (.absolute n)).readWord n) ∧
    (∀ n, s.placeA (.literal n) = .lit n ∧ s.valueA (.literal n) = n) ∧
    ∀ n, s.placeA (.inline n) = .lit n ∧ s.valueA (.inline n) = n

/-- The b operand, resolved after a: where each code points, what it reads, where PC and SP stand after it, and which
devices its fetch and its read reach (R104, R105, R110, R111, R88, R52). A word that lies in no device reads as it did
before. The order is decision D3 (log 3), that the next word of [r + n] and of PICK is added unscaled is D28 (log 26),
that an address wraps at 16 bits is D2 (log 2), and that reads are recorded is the model's own (log 20). -/
def Obligations.OperandBResolves : Prop :=
  ∀ (s : State) (a : Operand),
    (∀ b, s.afterB b a = handledB s b a ∧ s.readB b a = readHandledB s b a) ∧
    (∀ b va, noDevice s (wordOctets s va) → (handledB s b a).readWord va = s.readWord va) ∧
    (∀ r, s.placeB (.reg r) a = .reg r ∧ s.valueB (.reg r) a = s.reg r) ∧
    (∀ r, s.placeB (.ind r) a = .mem (s.reg r) ∧
      s.valueB (.ind r) a = (handledB s (.ind r) a).readWord (s.reg r)) ∧
    (∀ r n, s.placeB (.indNext r n) a = .mem (s.reg r + n) ∧
      s.valueB (.indNext r n) a = (handledB s (.indNext r n) a).readWord (s.reg r + n)) ∧
    (s.placeB .stack a = .mem (spAfterA s a - s.wordStep) ∧
      s.valueB .stack a = (handledB s .stack a).readWord (spAfterA s a - s.wordStep)) ∧
    (s.placeB .peek a = .mem (spAfterA s a) ∧
      s.valueB .peek a = (handledB s .peek a).readWord (spAfterA s a)) ∧
    (∀ n, s.placeB (.pick n) a = .mem (spAfterA s a + n) ∧
      s.valueB (.pick n) a = (handledB s (.pick n) a).readWord (spAfterA s a + n)) ∧
    (s.placeB .sp a = .sp ∧ s.valueB .sp a = spAfterA s a) ∧
    (s.placeB .pc a = .pc ∧ s.valueB .pc a = pcAfter s (basicLength .pc a)) ∧
    (s.placeB .ex a = .ex ∧ s.valueB .ex a = s.ex) ∧
    (∀ n, s.placeB (.absolute n) a = .mem n ∧
      s.valueB (.absolute n) a = (handledB s (.absolute n) a).readWord n) ∧
    ∀ n, s.placeB (.literal n) a = .lit n ∧ s.valueB (.literal n) a = n

/-- What a place reads after a direct output to it: the whole value without a mask, one octet of it merged with the
old other octet under a mask, and a literal is not written at all (R106, R79; the masked memory write is decision D15,
log 13). A place in memory is a word in RAM here; what ROM and devices do is `PhysicalBusAccess`. -/
def Obligations.DirectOutputUnderMask : Prop :=
  ∀ (s : State) (mask : ByteMask) (p : Place) (v : Word),
    (∀ n, s.writeOp mask (.lit n) v = s) ∧
      ((∀ n, p ≠ .lit n) → (∀ va, p = .mem va → ramWord s va) →
        (s.writeOp mask p v).readPlace p =
          if mask = .off then v
          else if mask = .protectHigh then (s.readPlace p &&& 0xff00) ||| (v &&& 0x00ff)
          else (s.readPlace p &&& 0x00ff) ||| (v &&& 0xff00))

/-- A direct output changes nothing but its place: every other register, SP, PC and EX, BYT and the system state are as
before; and, where the octets it stores to lie in RAM, every other octet and the record of transactions too (R106, R47;
what a write to ROM or to a device does is free, R52, log 37). -/
def Obligations.DirectOutputChangesOnlyItsPlace : Prop :=
  ∀ (s : State) (mask : ByteMask) (p : Place) (v : Word),
    (∀ r, p ≠ .reg r → (s.writeOp mask p v).reg r = s.reg r) ∧
      (p ≠ .sp → (s.writeOp mask p v).sp = s.sp) ∧
      (p ≠ .pc → (s.writeOp mask p v).pc = s.pc) ∧
      (p ≠ .ex → (s.writeOp mask p v).ex = s.ex) ∧
      (s.writeOp mask p v).byt = s.byt ∧ sameSystem s (s.writeOp mask p v) ∧
      (allRam s (storedOctets s mask p) →
        (∀ q, q ∉ storedOctets s mask p → (s.writeOp mask p v).octet q = s.octet q) ∧
          (s.writeOp mask p v).busLog = s.busLog)

/-! ## Memory -/

/-- Native translation: the page number above, the 12-bit offset below (R41). -/
def Obligations.NativeTranslation : Prop :=
  ∀ (s : State) (va : Word), s.mode = .native →
    (blockOf va).toNat = va.toNat / 4096 ∧
      (s.lowAddr va).toNat = (s.page (blockOf va)).toNat * 4096 + va.toNat % 4096

/-- A word in memory: its octets read little-endian, the low one first, a word in RAM reads as it was written, and a write
to RAM stores to both of its octets and to no other. In Native mode the high octet is the octet at the next virtual
address, translated on its own (R43 to R46; R44 is decision D2, log 2). In Compatible mode EMU bits 11:1 stand above the
doubled offset, and the high octet is at the next address (R42; the place of the high octet is decision D30, log 28). A
word that lies in no device reads without any effect. -/
def Obligations.WordsInMemory : Prop :=
  ∀ (s : State) (va v : Word),
    (s.readWord va).toNat =
        (s.octet (s.lowAddr va)).toNat + 256 * ((s.noteRead [s.lowAddr va]).octet (s.highAddr va)).toNat ∧
      (noDevice s (wordOctets s va) →
        (s.readWord va).toNat = (s.octet (s.lowAddr va)).toNat + 256 * (s.octet (s.highAddr va)).toNat ∧
          s.afterRead va = s) ∧
      (ramWord s va →
        (s.writeWord va v).readWord va = v ∧
          ∀ q, q ∉ wordOctets s va → (s.writeWord va v).octet q = s.octet q) ∧
      (s.mode = .native → s.highAddr va = s.lowAddr (va + 1)) ∧
      (s.mode = .compatible →
        (s.lowAddr va).toNat = (s.page (blockOf va)).toNat / 2 * 8192 + va.toNat % 4096 * 2 ∧
          (s.highAddr va).toNat = (s.lowAddr va).toNat + 1)

/-- A word written to RAM through one block is the word read through another block mapped to the same page, at the same
offset (R50, R42). In Native mode the last offset of a block is left out: its high octet lies in the next block
(R44, decision D2). -/
def Obligations.AliasedBlocksShareWords : Prop :=
  ∀ (s : State) (x y v : Word), offsetOf x = offsetOf y → ramWord s x →
    (s.mode = .native → s.page (blockOf x) = s.page (blockOf y) ∧ offsetOf x ≠ 0xfff) →
    (s.mode = .compatible → (s.page (blockOf x)).toNat / 2 = (s.page (blockOf y)).toNat / 2) →
      (s.writeWord x v).readWord y = v

/-- A push lowers SP by one word and stores a whole word there under every mask, nothing else changes, and the pop after
it restores SP and, from a stack in RAM, gives the word back. A pop changes SP, and reads the word (R114). -/
def Obligations.PushThenPop : Prop :=
  ∀ (s : State) (v : Word),
    s.push v = { s.writeWord (s.sp - s.wordStep) v with sp := s.sp - s.wordStep } ∧
      (ramWord s (s.sp - s.wordStep) → (s.push v).readWord (s.sp - s.wordStep) = v ∧ (s.push v).pop.1 = v) ∧
      (s.push v).pop.2.sp = s.sp ∧
      s.pop = (s.readWord s.sp,
        { s with sp := s.sp + s.wordStep, busLog := s.busLog ++ s.readEvents (wordOctets s s.sp) })

/-! ## Basic instructions -/

/-- SET, AND, BOR and XOR write the value to b under the mask, SET without reading b (R113), leave EX as it is unless b
names it, and change nothing else (R140, R149, R150, R151, R161; that EX stays is decision D27, log 25, that SET does
not read b is D5, log 4). -/
def Obligations.MoveAndLogicResults : Prop :=
  ∀ (s : State) (b a : Operand),
    exec (.set b a) s = .next (afterMoveB s b a (s.valueA a)) ∧
      exec (.and b a) s = .next (afterOutputB s b a (s.valueB b a &&& s.valueA a)) ∧
      exec (.bor b a) s = .next (afterOutputB s b a (s.valueB b a ||| s.valueA a)) ∧
      exec (.xor b a) s = .next (afterOutputB s b a (s.valueB b a ^^^ s.valueA a))

/-- ADD, ADX and SBX: the sum or difference with or without the old EX, and the new EX. ADD's EX is 1 on the unsigned
carry, which is R141's own inference. The result word of ADX and SBX does not depend on how the old EX is read; the new
EX does, and the reading is the platform's switch, unsigned by decision D9 (R155, R156; log 7). -/
def Obligations.AdditionResults : Prop :=
  ∀ (s : State) (b a : Operand),
    let sum : Int := (s.valueB b a).toNat + (s.valueA a).toNat
    let difference : Int := (s.valueB b a).toNat - (s.valueA a).toNat
    let old : Int := if s.cfg.exInSigned then s.ex.toInt else s.ex.toNat
    exec (.add b a) s =
        .next (afterOutputBEx s b a (s.valueB b a + s.valueA a) (if 65536 ≤ sum then 0x0001 else 0x0000)) ∧
      exec (.adx b a) s =
        .next (afterOutputBEx s b a (s.valueB b a + s.valueA a + s.ex)
          (if 65536 ≤ sum + old then 0x0001 else 0x0000)) ∧
      exec (.sbx b a) s =
        .next (afterOutputBEx s b a (s.valueB b a - s.valueA a + s.ex)
          (if difference + old < 0 then 0xffff else if 65536 ≤ difference + old then 0x0001 else 0x0000))

/-- SUB writes b - a, and 0xffff to EX where b is less than a, else 0 (R142). -/
def Obligations.SubResult : Prop :=
  ∀ (s : State) (b a : Operand),
    exec (.sub b a) s =
      .next (afterOutputBEx s b a (s.valueB b a - s.valueA a)
        (if (s.valueB b a).toNat < (s.valueA a).toNat then 0xffff else 0x0000))

/-- MUL and MLI: EX and b are the high and the low word of the 32-bit product of the operands, zero-extended for MUL and
sign-extended for MLI (R143, R144). -/
def Obligations.MultiplicationResults : Prop :=
  ∀ (s : State) (b a : Operand),
    exec (.mul b a) s =
        .next (afterOutputBEx s b a (((s.valueB b a).setWidth 32 * (s.valueA a).setWidth 32).extractLsb' 0 16)
          (((s.valueB b a).setWidth 32 * (s.valueA a).setWidth 32).extractLsb' 16 16)) ∧
      exec (.mli b a) s =
        .next (afterOutputBEx s b a (((s.valueB b a).signExtend 32 * (s.valueA a).signExtend 32).extractLsb' 0 16)
          (((s.valueB b a).signExtend 32 * (s.valueA a).signExtend 32).extractLsb' 16 16))

/-- DIV: b is the unsigned quotient, EX the low word of the 32-bit quotient of b followed by 16 zeros, both 0 where a
is 0 (R145). -/
def Obligations.DivResult : Prop :=
  ∀ (s : State) (b a : Operand),
    exec (.div b a) s =
      .next (afterOutputBEx s b a (if s.valueA a = 0 then 0 else s.valueB b a / s.valueA a)
        (if s.valueA a = 0 then 0
         else (((s.valueB b a ++ 0#16 : BitVec 32) / (s.valueA a).setWidth 32).extractLsb' 0 16)))

/-- DVI: b is the signed quotient rounded toward 0, EX the low word of the signed 32-bit quotient of b followed by 16
zeros, both 0 where a is 0, and -32768 / -1 wraps to 0x8000 with EX 0 (R146; decision D10, log 8). -/
def Obligations.DviResult : Prop :=
  ∀ (s : State) (b a : Operand),
    exec (.dvi b a) s =
      .next (afterOutputBEx s b a (if s.valueA a = 0 then 0 else (s.valueB b a).sdiv (s.valueA a))
        (if s.valueA a = 0 then 0
         else (((s.valueB b a ++ 0#16 : BitVec 32).sdiv ((s.valueA a).signExtend 32)).extractLsb' 0 16)))

/-- MOD and MDI: the unsigned remainder, and the signed one with the sign of b, 0 where a is 0; EX stays (R147, R148;
R148's sign is the rule's own inference from the source's example, that EX stays is decision D27, log 25). -/
def Obligations.RemainderResults : Prop :=
  ∀ (s : State) (b a : Operand),
    exec (.mod b a) s = .next (afterOutputB s b a (if s.valueA a = 0 then 0 else s.valueB b a % s.valueA a)) ∧
      exec (.mdi b a) s =
        .next (afterOutputB s b a (if s.valueA a = 0 then 0 else (s.valueB b a).srem (s.valueA a)))

/-- SHR, ASR and SHL shift 32 bits by the whole of a: b followed by 16 zeros to the right, logically or with the sign,
b after 16 zeros to the left. The half that b was in is the result, the other half is EX (R152, R153, R154;
counts of 16 and more are decision D8, log 6). -/
def Obligations.ShiftResults : Prop :=
  ∀ (s : State) (b a : Operand),
    exec (.shr b a) s =
        .next (afterOutputBEx s b a (((s.valueB b a ++ 0#16 : BitVec 32) >>> (s.valueA a).toNat).extractLsb' 16 16)
          (((s.valueB b a ++ 0#16 : BitVec 32) >>> (s.valueA a).toNat).extractLsb' 0 16)) ∧
      exec (.asr b a) s =
        .next (afterOutputBEx s b a
          (((s.valueB b a ++ 0#16 : BitVec 32).sshiftRight (s.valueA a).toNat).extractLsb' 16 16)
          (((s.valueB b a ++ 0#16 : BitVec 32).sshiftRight (s.valueA a).toNat).extractLsb' 0 16)) ∧
      exec (.shl b a) s =
        .next (afterOutputBEx s b a (((s.valueB b a).setWidth 32 <<< (s.valueA a).toNat).extractLsb' 0 16)
          (((s.valueB b a).setWidth 32 <<< (s.valueA a).toNat).extractLsb' 16 16))

/-- STI and STD: b is set to a under the mask, then I and J, as they stand then, move by one word up or down (R157, R158,
R161). That EX stays is decision D27 (log 25), that I and J step in full under a mask is D15 (log 13), and that b is not
read is D5 (log 4). -/
def Obligations.SetAndStepResults : Prop :=
  ∀ (s : State) (b a : Operand),
    let t := afterMoveB s b a (s.valueA a)
    exec (.sti b a) s = .next ((t.setReg .i (t.reg .i + s.wordStep)).setReg .j (t.reg .j + s.wordStep)) ∧
      exec (.std b a) s = .next ((t.setReg .i (t.reg .i - s.wordStep)).setReg .j (t.reg .j - s.wordStep))

/-- The eight conditionals: where the test holds, only PC and SP change, as the operands say; where it fails, the next
instruction is skipped from there (R170 to R177, R178, R180). That the skip is made inside the instruction and passes over
a chain, by the lengths its first words give, is R178 with decisions D26 and D29 (logs 24 and 27); that BYT is kept where
the test holds is R180. -/
def Obligations.ConditionalResults : Prop :=
  ∀ (s : State) (b a : Operand),
    let t := readHandledB s b a
    exec (.ifb b a) s = .next (if s.valueB b a &&& s.valueA a ≠ 0 then t else t.skipChain) ∧
      exec (.ifc b a) s = .next (if s.valueB b a &&& s.valueA a = 0 then t else t.skipChain) ∧
      exec (.ife b a) s = .next (if s.valueB b a = s.valueA a then t else t.skipChain) ∧
      exec (.ifn b a) s = .next (if s.valueB b a ≠ s.valueA a then t else t.skipChain) ∧
      exec (.ifg b a) s = .next (if (s.valueA a).toNat < (s.valueB b a).toNat then t else t.skipChain) ∧
      exec (.ifa b a) s = .next (if (s.valueA a).toInt < (s.valueB b a).toInt then t else t.skipChain) ∧
      exec (.ifl b a) s = .next (if (s.valueB b a).toNat < (s.valueA a).toNat then t else t.skipChain) ∧
      exec (.ifu b a) s = .next (if (s.valueB b a).toInt < (s.valueA a).toInt then t else t.skipChain)

/-- A skip passes over `n` conditional instructions and the one after them that is not, each by the length its first
word gives, and ends with SKIP off and BYT off; passing over an instruction reads its first word and moves PC, no more
(R178, R180; that only first words are read is decision D29, log 27). `skipFuel` values of `n` are all there are: see
`SkipEndsUnlessEndless`. -/
def Obligations.SkipPassesOverAChain : Prop :=
  ∀ (s : State) (n : Nat), n < skipFuel →
    (∀ k < n, isConditionalWord ((State.pastInstr^[k] s).readWord (State.pastInstr^[k] s).pc) = true) →
    isConditionalWord ((State.pastInstr^[n] s).readWord (State.pastInstr^[n] s).pc) = false →
      s.skipChain = { State.pastInstr^[n + 1] s with skip := false, byt := .off } ∧
        ∀ t : State, t.pastInstr =
          { t with
            pc := t.pc + BitVec.ofNat 16 (instrLength (t.readWord t.pc)) * t.wordStep
            busLog := t.busLog ++ t.readEvents (wordOctets t t.pc) }

/-- A skip goes on beyond one step exactly where the first `skipFuel` instructions it reaches are all conditional. Where
no device is mapped into memory that bound cuts off no chain that ends: then every instruction it would ever reach is
conditional. A step of a state that is still skipping once what arrives was taken in goes on with that skip and does
nothing else (the model's own device, log 24, DEDUCED from R178). -/
def Obligations.SkipEndsUnlessEndless : Prop :=
  (∀ s : State,
    s.skipChain.skip = true ↔
      ∀ k < skipFuel, isConditionalWord ((State.pastInstr^[k] s).readWord (State.pastInstr^[k] s).pc) = true) ∧
    (∀ s : State, noDeviceMapped s →
      (s.skipChain.skip = true ↔
        ∀ k, isConditionalWord ((State.pastInstr^[k] s).readWord (State.pastInstr^[k] s).pc) = true)) ∧
    (∀ s t : State, s.arrivals = some t → t.skip = true → step s = .next t.skipChain) ∧
    ∀ s : State, nothingArrives s → s.arrivals = some (turned s)

/-- HWW hands a whole word to the port b names. HWR writes what the port a names answers to b, under the mask, without
reading b. HCF writes HCR whole, and the heater then makes the changes the platform says, or any changes where it says
nothing; HCR and BYT stand whatever it does. Each records its transfer (R191, R192, R206; decisions D5, D15, D21 and D22,
logs 4, 13, 18 and 20: what a port answers and what the heater does are free values). -/
def Obligations.DeviceTransferResults : Prop :=
  ∀ (s : State) (b a : Operand),
    exec (.hww b a) s =
        .next { readHandledB s b a with
          byt := .off, busLog := (readHandledB s b a).busLog ++ [.ioWrite (s.valueB b a) (s.valueA a)] } ∧
      exec (.hwr b a) s =
        .next { ({ handledB s b a with
            busLog := (handledB s b a).busLog ++ [.ioRead (s.valueA a)] } : State).writeOp s.byt
              (s.placeB b a) (Config.ioRead s.turns (handledB s b a).busLog (s.valueA a)) with byt := .off } ∧
      exec (.hcf a) s =
        .next { (heaterSet s a).changeAll ((heaterSet s a).heaterEffect (s.valueA a)) with byt := .off } ∧
      (∀ t, exec (.hcf a) s = .next t → t.hcr = s.valueA a ∧ t.byt = .off) ∧
      (∀ cs rest, s.cfg.heaterHook = (s.valueA a, cs) :: rest → (heaterSet s a).heaterEffect (s.valueA a) = cs) ∧
      (s.cfg.heaterHook = [] →
        (heaterSet s a).heaterEffect (s.valueA a) = Config.heaterEffect (heaterSet s a) (s.valueA a))

/-! ## Special instructions -/

/-- JSR and BSR push the address of the next instruction, unmasked, and go to a, or to a past the next instruction,
unscaled (R200, R201; decisions D15 and D28, logs 13 and 26). -/
def Obligations.CallResults : Prop :=
  ∀ (s : State) (a : Operand),
    let p := readHandledA s a
    exec (.jsr a) s =
        .next { p.writeWord (below s p.sp 1) p.pc with sp := below s p.sp 1, pc := s.valueA a, byt := .off } ∧
      exec (.bsr a) s =
        .next { p.writeWord (below s p.sp 1) p.pc with sp := below s p.sp 1, pc := p.pc + s.valueA a, byt := .off }

/-- SXB fills the high octet of a with bit 7, SWP exchanges its octets, each under the mask, and EX stays unless a names it
(R207, R208; the write through POP is decision D4, log 4, that EX stays is D27, log 25). -/
def Obligations.OctetResults : Prop :=
  ∀ (s : State) (a : Operand),
    exec (.sxb a) s =
        .next (afterOutputA s a
          (if (s.valueA a).getLsbD 7 then 0xff00 ||| (s.valueA a &&& 0x00ff) else s.valueA a &&& 0x00ff)) ∧
      exec (.swp a) s = .next (afterOutputA s a ((s.valueA a <<< 8) ||| (s.valueA a >>> 8)))

/-- INT queues its message last; the 257th message is the fault queueOverflow (R220, R304, R306; decisions D12 and D13,
logs 10 and 11). -/
def Obligations.SoftwareInterrupt : Prop :=
  ∀ (s : State) (a : Operand),
    (s.iq.length < 256 →
        exec (.int a) s = .next { readHandledA s a with iq := s.iq ++ [s.valueA a], byt := .off }) ∧
      (256 ≤ s.iq.length → exec (.int a) s = .fault .queueOverflow)

/-- NEG writes the two's complement negation to a; IAG, OMG and OVG write IA, OVM and OVA to a, which they do not read; each
under the mask, and EX stays unless a names it (R205, R221, R241, R243, R113; through POP by decision D4 and not read by
D5, log 4; EX by decision D27, log 25). -/
def Obligations.NegateAndReadResults : Prop :=
  ∀ (s : State) (a : Operand),
    exec (.neg a) s = .next (afterOutputA s a (-s.valueA a)) ∧
      exec (.iag a) s = .next (afterMoveA s a s.ia) ∧
      exec (.omg a) s = .next (afterMoveA s a s.ovm) ∧
      exec (.ovg a) s = .next (afterMoveA s a s.ova)

/-- IAS, OMS and OVS write IA, OVM and OVA, and IAQ turns queuing on for a nonzero a and off for 0 (R222, R242, R244,
R224). That each is written whole under a mask is decision D15 (log 13). -/
def Obligations.SpecialRegisterWrites : Prop :=
  ∀ (s : State) (a : Operand),
    exec (.ias a) s = .next { readHandledA s a with ia := s.valueA a, byt := .off } ∧
      exec (.oms a) s = .next { readHandledA s a with ovm := s.valueA a, byt := .off } ∧
      exec (.ovs a) s = .next { readHandledA s a with ova := s.valueA a, byt := .off } ∧
      exec (.iaq a) s = .next { readHandledA s a with qf := decide (s.valueA a ≠ 0), byt := .off }

/-- MMW maps block a[3:0] to page a[15:4]; MMR writes the page of block a[3:0], shifted left by 4, to a (R230, R231). That
the EMU is written whole under a mask is decision D15 (log 13), that all 12 bits are stored in both modes is D32 (log 28),
MMR's write through POP is D4 (log 4), and that EX stays is D27 (log 25). -/
def Obligations.PageMapAccess : Prop :=
  ∀ (s : State) (a : Operand),
    (blockField (s.valueA a)).toNat = (s.valueA a).toNat % 16 ∧
      (pageField (s.valueA a)).toNat = (s.valueA a).toNat / 16 ∧
      exec (.mmw a) s =
        .next { readHandledA s a with
          emu := s.emu.set (blockField (s.valueA a)).toFin (pageField (s.valueA a)), byt := .off } ∧
      exec (.mmr a) s =
        .next (afterOutputA s a (BitVec.ofNat 16 ((s.page (blockField (s.valueA a))).toNat * 16)))

/-- RFI turns queuing off, then pops A, then PC, from where its own operand, which is read, leaves SP (R223, R313;
decision D6, log 4). -/
def Obligations.ReturnFromInterrupt : Prop :=
  ∀ (s : State) (a : Operand),
    let p := readHandledA s a
    let q := p.afterRead p.sp
    let r := q.afterRead (above s p.sp 1)
    exec (.rfi a) s =
      .next { r.setReg .a (p.readWord p.sp) with
        pc := q.readWord (above s p.sp 1), sp := above s p.sp 2, qf := false, byt := .off }

/-- OSN, OSQ, OSI and OSR do nothing but advance where OVA is 0, else they enter the OS vector handler with the numbers
0x0010 to 0x0013 (R236 to R239, R320, R321; that QF is untouched is decision D25, log 23). -/
def Obligations.OsVectorCalls : Prop :=
  ∀ (s : State) (a : Operand),
    let entered := fun n : Word =>
      if s.ova = 0 then { readHandledA s a with byt := .off }
      else { enteredOsCall (readHandledA s a) n (s.valueA a) with byt := .off }
    exec (.osn a) s = .next (entered 0x0010) ∧ exec (.osq a) s = .next (entered 0x0011) ∧
      exec (.osi a) s = .next (entered 0x0012) ∧ exec (.osr a) s = .next (entered 0x0013)

/-- RFO, its operand read, exchanges the page in OVM with the block's page, then pops B, A and PC through the new mapping
(R240, R322; decision D6, log 4). -/
def Obligations.ReturnFromOsCall : Prop :=
  ∀ (s : State) (a : Operand),
    let p := exchanged (readHandledA s a)
    let q := p.afterRead p.sp
    let r := q.afterRead (above s p.sp 1)
    let e := r.afterRead (above s p.sp 2)
    exec (.rfo a) s =
      .next { (e.setReg .b (p.readWord p.sp)).setReg .a (q.readWord (above s p.sp 1)) with
        pc := r.readWord (above s p.sp 2), sp := above s p.sp 3, byt := .off }

/-- CME switches to the other mode for its key and converts PC, SP, IA and OVA, each from its own old value: to the
right with the EMU's low bit on top, or to the left; any other value or the mode in force changes nothing else
(R248; decision D16, log 14). -/
def Obligations.ModeSwitch : Prop :=
  ∀ (s : State) (a : Operand),
    let p := readHandledA s a
    let down := fun r : Word => r >>> 1 ||| (if (s.page (blockOf r)).getLsbD 0 then 0x8000 else 0x0000)
    exec (.cme a) s =
      .next (
        if s.valueA a = 0x5555 ∧ s.mode = .native then
          { p with pc := down p.pc, sp := down p.sp, ia := down s.ia, ova := down s.ova,
                   mode := .compatible, byt := .off }
        else if s.valueA a = 0xaaaa ∧ s.mode = .compatible then
          { p with pc := p.pc <<< 1, sp := p.sp <<< 1, ia := s.ia <<< 1, ova := s.ova <<< 1,
                   mode := .native, byt := .off }
        else { p with byt := .off })

/-! ## Implied instructions -/

/-- HLT with IA = 0 halts; with IA not 0 it queues message 0 and goes on, and a full queue is the fault queueOverflow
(R260, R306; decisions D11 and D13, logs 9 and 11). -/
def Obligations.HaltResult : Prop :=
  ∀ (s : State) (v : Bool),
    (s.ia = 0 → exec (.hlt v) s = .next { handledNone s with run := .halted, byt := .off }) ∧
      (s.ia ≠ 0 → s.iq.length < 256 →
        exec (.hlt v) s = .next { handledNone s with iq := s.iq ++ [0], byt := .off }) ∧
      (s.ia ≠ 0 → 256 ≤ s.iq.length → exec (.hlt v) s = .fault .queueOverflow)

/-- SLP goes to sleep, its PC past it. SKP skips from the instruction after it, through a chain of conditionals, and
uses a mask up (R262, R270; that SKP chains is decision D14, log 12). -/
def Obligations.SleepAndSkipResults : Prop :=
  ∀ (s : State) (v : Bool),
    exec (.slp v) s = .next { handledNone s with run := .sleeping, byt := .off } ∧
      exec (.skp v) s = .next { (handledNone s).skipChain with byt := .off }

/-- SFR leaves the reset state: Native mode, the platform's EMU layout, every register 0, the queue empty, Running. It
keeps memory but for what the platform's reset sets, and the platform's own state, and records the reset of the devices
(R264, R350, R353; the zeros are decision D1, the kept RAM D18, logs 1 and 16). -/
def Obligations.SelfReset : Prop :=
  ∀ (s : State) (v : Bool), exec (.sfr v) s = .next (afterReset (handledNone s))

/-- BYT protects the high octet for v = 1 and the low octet for v = 0, and the second of two turns the mask off
whatever its v (R266). -/
def Obligations.ByteMaskResult : Prop :=
  ∀ (s : State) (v : Bool),
    exec (.byt v) s =
      .next { handledNone s with
        byt := if s.byt ≠ .off then .off else if v then .protectHigh else .protectLow }

/-! ## The cycle -/

/-- Where nothing arrives, nothing can be triggered and nothing is being skipped, a step of a running CPU is the meaning
of the instruction the bytes at PC decode to, in the state once the turn began (R74, R88, R100). What a step fetches at PC
in any state is what these bytes decode to. Where no device is mapped into memory they are the six octets from PC on, low
octet first; else each as it reads when the instruction comes to it (R101, R52). -/
def Obligations.StepRunsTheDecodedInstruction : Prop :=
  (∀ (s : State) (i : Instr) (rest : List Byte),
    nothingArrives s → s.skip = false → s.run = .running → (s.iq = [] ∨ s.qf = true ∨ s.byt ≠ .off) →
      decode (turned s).codeBytes = .ok (i, rest) → step s = exec i (turned s)) ∧
    (∀ s : State, ∃ rest, decode s.codeBytes = .ok (s.fetchInstr, rest)) ∧
    ∀ s : State, noDeviceMapped s →
      s.codeBytes =
        [s.octet (s.lowAddr s.pc), s.octet (s.highAddr s.pc),
          s.octet (s.lowAddr (pcAfter s 1)), s.octet (s.highAddr (pcAfter s 1)),
          s.octet (s.lowAddr (pcAfter s 2)), s.octet (s.highAddr (pcAfter s 2))]

/-- A running CPU with a message waiting, queuing off and no mask in effect takes the oldest message off the queue: with
IA not 0 it enters the handler, with IA = 0 it drops the message, and in the same step it performs the instruction PC
then points at (R100, R308, R310, R311; first in first out is decision D12, log 10). -/
def Obligations.StepTakesTheOldestInterrupt : Prop :=
  ∀ (s : State) (m : Word) (q : List Word),
    nothingArrives s → s.skip = false → s.run = .running → s.iq = m :: q → s.qf = false → s.byt = .off →
      let t : State := { turned s with iq := q }
      let u := if s.ia = 0 then t else enteredInterrupt t m
      step s = exec u.fetchInstr u

/-- A halted CPU stays as it is, whether interrupts arrive or nothing does: they are ignored (R261; decision D17, logs 15
and 29). -/
def Obligations.HaltedStaysHalted : Prop :=
  ∀ (s : State) (ms : List Word), s.run = .halted → s.skip = false → s.inputs.headD [] = ms.map .interrupt →
    step s = .next (turned s)

/-- A sleeping CPU, with nothing arriving: it stays asleep with an empty queue or with queuing on, drops one message
with IA = 0, and otherwise wakes, enters the handler and performs its first instruction (R263; decision D17, log 15). -/
def Obligations.SleepEndsByAnInterrupt : Prop :=
  ∀ (s : State), nothingArrives s → s.skip = false → s.run = .sleeping → s.byt = .off →
    (s.iq = [] ∨ s.qf = true → step s = .next (turned s)) ∧
      ∀ m q, s.iq = m :: q → s.qf = false →
        (s.ia = 0 → step s = .next { turned s with iq := q }) ∧
          (s.ia ≠ 0 →
            let u := enteredInterrupt { turned s with iq := q, run := .running } m
            step s = exec u.fetchInstr u)

/-- What arrives at a boundary is taken in the platform's order before anything else of the cycle: the step is the one of
the state the first event leaves, with the other events still to come. A message is queued after those waiting, and a
257th is the fault queueOverflow; a halted CPU ignores it; a reset leaves the reset state, whatever came before it; a
device's own store sets an octet of memory. So a list of messages is queued in order (R303, R304, R306, R307, R350, R261;
decisions D12, D13, D17 and D24, logs 10, 11, 15, 22 and 29; in the reset state the zeros, the empty queue and Running are
decision D1, log 1, and the kept memory and that a platform's reset is the event SFR makes are D18, log 16; that a device's
store comes at a boundary is the model's choice, log 38). -/
def Obligations.ArrivingInterruptsAreQueued : Prop :=
  (∀ (s : State) (e : PlatformEvent) (es : List PlatformEvent) (rest : List (List PlatformEvent)),
    s.inputs = (e :: es) :: rest →
      let r : State := { s with inputs := es :: rest }
      step s =
        match e with
        | .reset => step (afterReset r)
        | .store p v => step { r with mem := Memory.write s.mem p.toNat v }
        | .interrupt m =>
          if s.run = .halted then step r
          else if s.iq.length < 256 then step { r with iq := s.iq ++ [m] }
          else .fault .queueOverflow) ∧
    ∀ (s : State) (ms : List Word) (rest : List (List PlatformEvent)),
      s.inputs = ms.map .interrupt :: rest → s.run ≠ .halted → ms ≠ [] →
        step s =
          if s.iq.length + ms.length ≤ 256 then step { s with inputs := [] :: rest, iq := s.iq ++ ms }
          else .fault .queueOverflow

/-- A reset the platform asserts brings a CPU in any state, halted, sleeping and skipping too, to the reset state, and the
first instruction is then fetched at address 0 (R350, R351; the zeros, PC = 0, the empty queue and Running are decision
D1, log 1, the kept RAM D18, log 16). -/
def Obligations.PlatformReset : Prop :=
  ∀ s : State, s.inputs.headD [] = [.reset] →
    let t := turned (afterReset s)
    step s = exec t.fetchInstr t

/-- The state after reset or power-on, for every platform and every contents of memory: Native mode, the platform's EMU
layout, and by the spec's own decision D1 (log 1: DESIGN CHOICE) everything else 0, empty, off or Running. Its first word
is read from the first two physical octets of block 0's page. The default platform has the sequential layout, and memory
with nothing listed (log 19) (R350, R351, R352). -/
def Obligations.ResetState : Prop :=
  (∀ (c : Config) (m : Memory),
    let r := State.powerOn c m
    r.mode = .native ∧ (∀ b : Block, r.page b = c.emuReset[b.toFin]) ∧ (∀ q, r.reg q = 0) ∧
      r.pc = 0 ∧ r.sp = 0 ∧ r.ex = 0 ∧ r.ia = 0 ∧ r.ova = 0 ∧ r.ovm = 0 ∧ r.iq = [] ∧ r.qf = false ∧
      r.skip = false ∧ r.byt = .off ∧ r.run = .running ∧ r.hcr = 0 ∧ r.mem = m ∧ r.cfg = c ∧
      (r.lowAddr r.pc).toNat = c.emuReset[0].toNat * 4096 ∧
      (r.highAddr r.pc).toNat = c.emuReset[0].toNat * 4096 + 1) ∧
    State.reset = State.powerOn Config.default [] ∧ (∀ b : Block, (State.reset.page b).toNat = b.toNat) ∧
    (State.reset.lowAddr State.reset.pc).toNat = 0 ∧ (State.reset.highAddr State.reset.pc).toNat = 1

/-! ## Rules of the whole machine -/

/-- The instructions whose only outputs are b and, for those that write it, EX change nothing else: each register but b's,
SP but as the operands move it, EX but where b is EX or the instruction writes it, and all of the system state; and, where
the octets the output stores to lie in RAM, every other octet of memory, and the record of transactions on a platform with
no device in memory (R101, R106, R113, R161; that EX stays for SET, MOD, MDI, AND, BOR and XOR is decision D27, log 25;
what a write to ROM or a device does is free, R52, log 37). -/
def Obligations.BasicOutputFrame : Prop :=
  ∀ (s t : State) (b a : Operand) (i : Instr),
    i ∈ [.set b a, .mod b a, .mdi b a, .and b a, .bor b a, .xor b a, .add b a, .sub b a, .mul b a, .mli b a, .div b a,
      .dvi b a, .shr b a, .asr b a, .shl b a, .adx b a, .sbx b a] →
    exec i s = .next t →
      (∀ r, s.placeB b a ≠ .reg r → t.reg r = s.reg r) ∧
        (s.placeB b a ≠ .sp → t.sp = spAfterB s b a) ∧
        (s.placeB b a ≠ .pc → t.pc = pcAfter s (basicLength b a)) ∧
        (s.placeB b a ≠ .ex → writesEx i = false → t.ex = s.ex) ∧
        t.byt = .off ∧ sameSystem s t ∧
        (allRam s (storedOctets s s.byt (s.placeB b a)) →
          (∀ q, q ∉ storedOctets s s.byt (s.placeB b a) → s.kindAt q ≠ .device → t.octet q = s.octet q) ∧
            (noDeviceMapped s → t.busLog = s.busLog))

/-- STI, STD and HWR: as the other instructions that write b, but I and J move as well for STI and STD, and HWR adds its
transfer to the record (R157, R158, R192; that EX stays is decision D27, log 25; the record is log 20). -/
def Obligations.StepAndReadFrame : Prop :=
  ∀ (s t : State) (b a : Operand) (i : Instr), i ∈ [.sti b a, .std b a, .hwr b a] → exec i s = .next t →
    (∀ r, s.placeB b a ≠ .reg r → (i = .hwr b a ∨ (r ≠ .i ∧ r ≠ .j)) → t.reg r = s.reg r) ∧
      (s.placeB b a ≠ .sp → t.sp = spAfterB s b a) ∧
      (s.placeB b a ≠ .pc → t.pc = pcAfter s (basicLength b a)) ∧
      (s.placeB b a ≠ .ex → t.ex = s.ex) ∧
      t.byt = .off ∧ sameSystem s t ∧
      (allRam s (storedOctets s s.byt (s.placeB b a)) →
        (∀ q, q ∉ storedOctets s s.byt (s.placeB b a) → s.kindAt q ≠ .device → t.octet q = s.octet q) ∧
          (noDeviceMapped s →
            t.busLog = if i = .hwr b a then s.busLog ++ [.ioRead (s.valueA a)] else s.busLog))

/-- The special instructions that write their operand change nothing else (R107, R113; that EX stays is decision D27,
log 25, and that a written POP is the word at the old SP is D4, log 4). -/
def Obligations.SpecialOutputFrame : Prop :=
  ∀ (s t : State) (a : Operand) (i : Instr),
    i ∈ [.neg a, .sxb a, .swp a, .iag a, .omg a, .ovg a, .mmr a] → exec i s = .next t →
      (∀ r, s.placeA a ≠ .reg r → t.reg r = s.reg r) ∧
        (s.placeA a ≠ .sp → t.sp = spAfterA s a) ∧
        (s.placeA a ≠ .pc → t.pc = pcAfter s (specialLength a)) ∧
        (s.placeA a ≠ .ex → t.ex = s.ex) ∧
        t.byt = .off ∧ sameSystem s t ∧
        (allRam s (storedOctets s s.byt (s.placeA a)) →
          (∀ q, q ∉ storedOctets s s.byt (s.placeA a) → s.kindAt q ≠ .device → t.octet q = s.octet q) ∧
            (noDeviceMapped s → t.busLog = s.busLog))

/-- The instructions with no direct output and no push leave every octet of memory as it was, but for the octets the heater
sets for HCF and the platform's reset for SFR; and a call changes only the words it pushes, found under the mapping before
the call: one for JSR and BSR, three for an OS vector call, where they lie in RAM (R113, R114, R200, R206, R264, R320,
R353; elsewhere the write's effect is free, R52, log 37). The pushed words' addresses are those the model computes them by:
`below` the stack pointer that `spAfterA` leaves, translated by `wordOctets`. That SFR otherwise keeps memory is decision
D18 (log 16), and that the heater's effect is free is D21 (log 18). An octet of a device is not memory: what it reads as
is free. -/
def Obligations.MemoryOutsideStoresIsKept : Prop :=
  (∀ (i : Instr) (s t : State) (q : PAddr), storesNothing i = true → exec i s = .next t → q ∉ platformStores s i →
      s.kindAt q ≠ .device → t.octet q = s.octet q) ∧
    (∀ (s t : State) (a : Operand) (i : Instr) (q : PAddr), i ∈ [.jsr a, .bsr a] → exec i s = .next t →
      allRam s (wordOctets s (below s (spAfterA s a) 1)) → s.kindAt q ≠ .device →
      q ∉ wordOctets s (below s (spAfterA s a) 1) → t.octet q = s.octet q) ∧
    ∀ (s t : State) (a : Operand) (i : Instr) (q : PAddr), i ∈ [.osn a, .osq a, .osi a, .osr a] →
      exec i s = .next t → s.kindAt q ≠ .device →
      (s.ova = 0 ∨
        (∀ k ∈ [1, 2, 3], allRam s (wordOctets s (below s (spAfterA s a) k)) ∧
          q ∉ wordOctets s (below s (spAfterA s a) k))) →
      t.octet q = s.octet q

/-- Who may change what, over every instruction: the mode only CME and SFR, IA and OVA only their writes, CME and SFR,
OVM and the EMU only their writes, OS vector calls, RFO and SFR, the queue only INT, HLT and SFR, QF only RFI, IAQ and
SFR, the run state only HLT, SLP and SFR, HCR only HCF and SFR; where all of memory is RAM only HWW, HWR, HCF and SFR
reach a device (R14 to R24, the table of 10_state.md section 9). HCF is on every list, since the heater's effect is free
(D21, log 18). The memory map (log 19), the record of transactions and that it only grows (log 20), the platform's
parameters (log 21), its coming events (log 22) and the count of turns (log 37), which no instruction changes, are the
model's own. -/
def Obligations.SystemStateChangesOnlyByItsInstructions : Prop :=
  ∀ (i : Instr) (s t : State), exec i s = .next t →
    (mayChangeMode i = false → t.mode = s.mode) ∧ (mayChangeIa i = false → t.ia = s.ia) ∧
      (mayChangeOva i = false → t.ova = s.ova) ∧ (mayChangeOvm i = false → t.ovm = s.ovm) ∧
      (mayChangeEmu i = false → t.emu = s.emu) ∧ (mayChangeQueue i = false → t.iq = s.iq) ∧
      (mayChangeQf i = false → t.qf = s.qf) ∧ (mayChangeRun i = false → t.run = s.run) ∧
      (mayChangeHcr i = false → t.hcr = s.hcr) ∧
      (mayTransfer i = false → (∀ q, s.kindAt q = .ram) → t.busLog = s.busLog) ∧
      s.busLog <+: t.busLog ∧ t.cfg = s.cfg ∧ t.inputs = s.inputs ∧ t.turns = s.turns

/-- EX changes only by the eleven instructions that have it as a side effect, by an operand that names it, by reset, and
by HCF where the heater changes it (R13, D21; that no other row changes it is decision D27, log 25). -/
def Obligations.ExChangesOnlyWhereNamed : Prop :=
  ∀ (i : Instr) (s t : State), exec i s = .next t → writesEx i = false → namesEx i = false →
    (∀ v, i ≠ .sfr v) → (∀ a, i ≠ .hcf a) → t.ex = s.ex

/-- How long a mask lasts: an instruction that is neither conditional nor BYT ends with BYT off, also one without a direct
output (R268; that such a one uses the mask up is decision D15, log 13). A conditional whose test holds leaves BYT as it
is; one whose test fails ends with BYT off once its skip is done, and leaves it where the skip goes on (R180; log 24). -/
def Obligations.MaskLastsOneInstruction : Prop :=
  ∀ (i : Instr) (s t : State), exec i s = .next t →
    (isConditional i = false → (∀ v, i ≠ .byt v) → t.byt = .off) ∧
      (isConditional i = true → passes s i = true → t.byt = s.byt) ∧
      (isConditional i = true → passes s i = false →
        (t.skip = false ∧ t.byt = .off) ∨ (t.skip = true ∧ t.byt = s.byt))

/-- Nothing stops a run but the two points the spec gives: performing a reserved opcode, and the 257th message by INT or
by HLT with IA not 0; no instruction is refused (R300, R301; decisions D7 and D13, logs 5 and 11). -/
def Obligations.FaultsOnlyWhereTheSpecStops : Prop :=
  ∀ (i : Instr) (s : State),
    (∀ r, exec i s ≠ .refused r) ∧
      ∀ f, exec i s = .fault f →
        (f = .reservedOpcode ∧ isReserved i = true) ∨
          (f = .queueOverflow ∧ 256 ≤ s.iq.length ∧
            ((∃ a, i = .int a) ∨ (∃ v, i = .hlt v) ∧ s.ia ≠ 0))

/-- At most one message leaves the queue in a step at which nothing arrives, and none overtakes another: the new queue
begins with the old one less at most its oldest message, unless the step performs SFR, which empties it, or HCF, whose
heater may do anything to it (R307, R308, R264, D21; decision D12, log 10; log 18). -/
def Obligations.AtMostOneMessageLeaves : Prop :=
  ∀ s t : State, nothingArrives s → step s = .next t →
    s.iq <+: t.iq ∨ s.iq.tail <+: t.iq ∨
      ∃ u, s.boundary = .perform u ∧ ((∃ v, u.fetchInstr = .sfr v) ∧ t.iq = [] ∨ ∃ a, u.fetchInstr = .hcf a)

/-- An interrupt is undone by the RFI of its handler: for every state `u` the handler may have reached in which the
mode, the EMU and SP stand as at entry and the two pushed words read as pushed, RFI gives back the PC, A and SP of the
interrupted state, with queuing off, and leaves everything else as the handler left it (R310, R313). The stack
lies in RAM; the premise that the two words share no octet rules out blocks mapped onto each other. That RFI's operand is
resolved and read, so that it must not be POP, which would take a word of its own, is decision D6 (log 4);
`ReturnFromInterrupt` covers POP. -/
def Obligations.ReturnUndoesInterruptEntry : Prop :=
  ∀ (s u : State) (m : Word) (a : Operand), a ≠ .stack →
    let t := s.interruptEntry m
    ramWord s (below s s.sp 1) → ramWord s (below s s.sp 2) → apart s (below s s.sp 1) (below s s.sp 2) →
    u.cfg = t.cfg → u.mode = t.mode → u.emu = t.emu → u.sp = t.sp →
    (∀ q ∈ wordOctets s (below s s.sp 1) ++ wordOctets s (below s s.sp 2), u.octet q = t.octet q) →
      exec (.rfi a) u =
        .next { (readHandledA u a).setReg .a (s.reg .a) with pc := s.pc, sp := s.sp, qf := false, byt := .off }

/-- An OS vector call is undone by the RFO of its handler: for every state `u` the handler may have reached in which the
mode, the EMU, OVM and SP stand as at entry and the three pushed words, found under the caller's mapping, read as
pushed, RFO gives back the PC, A, B, SP, EMU and OVM of the caller and leaves everything else as the handler left it
(R320, R240, R322). The stack lies in RAM, in words that share no octet. That RFO's operand is resolved and read, so that
it must not be POP, which would take a word of its own, is decision D6 (log 4); `ReturnFromOsCall` covers POP. -/
def Obligations.ReturnUndoesOsVectorCall : Prop :=
  ∀ (s u : State) (n m : Word) (a : Operand), a ≠ .stack → s.ova ≠ 0 →
    let t := s.osVectorCall n m
    ramWord s (below s s.sp 1) → ramWord s (below s s.sp 2) → ramWord s (below s s.sp 3) →
    apart s (below s s.sp 1) (below s s.sp 2) → apart s (below s s.sp 1) (below s s.sp 3) →
    apart s (below s s.sp 2) (below s s.sp 3) →
    u.cfg = t.cfg → u.mode = t.mode → u.emu = t.emu → u.ovm = t.ovm → u.sp = t.sp →
    (∀ q ∈ wordOctets s (below s s.sp 1) ++ wordOctets s (below s s.sp 2) ++ wordOctets s (below s s.sp 3),
      u.octet q = t.octet q) →
      exec (.rfo a) u =
        .next { ((readHandledA u a).setReg .b (s.reg .b)).setReg .a (s.reg .a) with
          pc := s.pc, sp := s.sp, emu := s.emu, ovm := s.ovm, byt := .off }

/-- Every step keeps the invariant: memory in canonical form, at most 256 messages, and no mask and no unfinished skip in a
CPU that is not running; and every step that does not perform HCF, whose heater may do anything (D21), keeps a halted CPU
with interrupts not enabled (R19, R306, R260, R261, R262). -/
def Obligations.StepKeepsInvariant : Prop :=
  (∀ s t : State, Inv s → step s = .next t → Inv t) ∧
    ∀ s t : State, HaltedDisabled s → step s = .next t →
      (∀ u a, s.boundary = .perform u → u.fetchInstr ≠ .hcf a) → HaltedDisabled t

/-- The state after reset meets the invariant, and so does the one after power-on with any platform and any memory in
canonical form. -/
def Obligations.ResetMeetsInvariant : Prop :=
  Inv State.reset ∧ HaltedDisabled State.reset ∧
    ∀ (c : Config) (m : Memory), m.wf → Inv (State.powerOn c m) ∧ HaltedDisabled (State.powerOn c m)

/-! ## The memory bus -/

/-- What an access to one physical octet does, by what the platform has there. RAM takes a written octet and reads it back,
and no other octet changes. RAM and ROM read as they hold, without any effect. What a device reads as is free, and hangs on
the transactions made before; the read is itself recorded. A write to ROM or to a device is recorded and sets any octets of
memory, a free value. A word write is the write of its low octet, then of its high one (R52, R46, R54; decision D22; that
an address in no region is RAM, the record, and the form of the free values are the model's choices, logs 19, 20 and 37). -/
def Obligations.PhysicalBusAccess : Prop :=
  ∀ (s : State) (p : PAddr) (v : Byte),
    (s.kindAt p = .ram →
        (s.setOctet p v).octet p = v ∧ (s.setOctet p v).busLog = s.busLog ∧
          ∀ q, q ≠ p → (s.setOctet p v).octet q = s.octet q) ∧
      (s.kindAt p ≠ .ram →
        s.setOctet p v =
          { s with
            mem := Memory.writeAll s.mem (Config.writeEffect s.turns (s.busLog ++ [.memWrite p v]))
            busLog := s.busLog ++ [.memWrite p v] }) ∧
      (s.kindAt p ≠ .device → s.octet p = Memory.read s.mem p.toNat ∧ s.noteRead [p] = s) ∧
      (s.kindAt p = .device →
        s.octet p = Config.deviceOctet s.turns s.busLog p ∧
          s.noteRead [p] = { s with busLog := s.busLog ++ [.memRead p] }) ∧
      (s.cfg.physBus.regions = [] → s.kindAt p = .ram) ∧
      (∀ l : List (PAddr × Byte), p ∉ l.map Prod.fst → (s.storeOctets l).octet p = s.octet p) ∧
      ∀ va w,
        s.afterRead va = (s.noteRead [s.lowAddr va]).noteRead [s.highAddr va] ∧
          s.writeWord va w = (s.setOctet (s.lowAddr va) (lowOctet w)).setOctet (s.highAddr va) (highOctet w)
end

