-- ==== Sys2Proof/Laws/Memory.lean ====
section
/-! SUPPORT. The laws of physical memory: a read after a write, and that every write keeps the canonical form. -/

namespace Sys2Proof.Machine

theorem Memory.read_erase (m : Memory) (a b : Nat) :
    (Memory.erase m a).read b = if b = a then unlistedOctet else m.read b := by
  induction m with
  | nil => simp [Memory.erase, Memory.read]
  | cons c m ih =>
    have ih' : Memory.read (List.filter (fun c => c.1 != a) m) b = _ := ih
    by_cases hc : c.1 = a
    · have he : Memory.erase (c :: m) a = Memory.erase m a := by simp [Memory.erase, hc]
      rw [he, ih]
      by_cases hb : b = a
      · simp [hb]
      · have hne : ¬ c.1 = b := fun e => hb (e.symm.trans hc)
        simp [Memory.read, hne]
    · have he : Memory.erase (c :: m) a = c :: Memory.erase m a := by simp [Memory.erase, hc]
      rw [he]
      simp only [Memory.read, ih]
      by_cases hb : c.1 = b
      · have hba : ¬ b = a := fun e => hc (hb.trans e)
        simp [hb, hba]
      · simp [hb]

theorem Memory.read_insert (m : Memory) (a b : Nat) (v : Byte) (hm : ∀ c ∈ m, c.1 ≠ a) :
    (Memory.insert a v m).read b = if b = a then v else m.read b := by
  induction m with
  | nil =>
    by_cases hb : b = a
    · simp [Memory.insert, Memory.read, hb]
    · have : ¬ a = b := fun e => hb e.symm
      simp [Memory.insert, Memory.read, hb, this]
  | cons c m ih =>
    have hc : c.1 ≠ a := hm c (by simp)
    have hrest : ∀ d ∈ m, d.1 ≠ a := fun d hd => hm d (by simp [hd])
    unfold Memory.insert
    by_cases hlt : a < c.1
    · by_cases hb : b = a
      · simp [hlt, Memory.read, hb]
      · have : ¬ a = b := fun e => hb e.symm
        simp [hlt, Memory.read, hb, this]
    · simp only [hlt, if_false, Memory.read, ih hrest]
      by_cases hb : c.1 = b
      · have : ¬ b = a := fun e => hc (hb.trans e)
        simp [hb, this]
      · simp [hb]

theorem Memory.erase_ne {m : Memory} {a : Nat} {c : Host.Cell} (h : c ∈ Memory.erase m a) : c.1 ≠ a := by
  simp only [Memory.erase, List.mem_filter, bne_iff_ne] at h
  exact h.2

/-- What a write can do to a read: the written octet at its address, every other as before. -/
theorem Memory.read_write (m : Memory) (a b : Nat) (v : Byte) :
    (Memory.write m a v).read b = if b = a then v else m.read b := by
  unfold Memory.write
  split
  · rename_i hv
    rw [Memory.read_erase]
    simp [hv]
  · rw [Memory.read_insert _ _ _ _ fun _ hc => Memory.erase_ne hc, Memory.read_erase]
    by_cases hb : b = a <;> simp [hb]

theorem Memory.wf_nil : Memory.wf [] := by
  simp [Memory.wf]

theorem Memory.wf_erase {m : Memory} (h : m.wf) (a : Nat) : (Memory.erase m a).wf := by
  refine ⟨h.1.filter _, fun c hc => h.2 c ?_⟩
  simp only [Memory.erase, List.mem_filter] at hc
  exact hc.1

theorem Memory.mem_insert (m : Memory) (a : Nat) (v : Byte) (c : Host.Cell) :
    c ∈ Memory.insert a v m ↔ c = (a, v) ∨ c ∈ m := by
  induction m with
  | nil => simp [Memory.insert]
  | cons d m ih =>
    unfold Memory.insert
    split
    · simp
    · simp only [List.mem_cons, ih]
      tauto

theorem Memory.wf_insert {m : Memory} (h : m.wf) {a : Nat} (ha : a < physicalOctets) {v : Byte}
    (hv : v ≠ unlistedOctet) (hne : ∀ c ∈ m, c.1 ≠ a) : (Memory.insert a v m).wf := by
  refine ⟨?_, fun c hc => ?_⟩
  · have key : ∀ l : Memory, l.Pairwise (fun c d => c.1 < d.1) → (∀ c ∈ l, c.1 ≠ a) →
        (Memory.insert a v l).Pairwise (fun c d => c.1 < d.1) := by
      intro l
      induction l with
      | nil => intro _ _; simp [Memory.insert]
      | cons d l ih =>
        intro hp hn
        rw [List.pairwise_cons] at hp
        have hda : d.1 ≠ a := hn d (by simp)
        unfold Memory.insert
        split
        · rename_i hlt
          refine List.pairwise_cons.2 ⟨fun c hc => ?_, List.pairwise_cons.2 hp⟩
          rcases List.mem_cons.1 hc with rfl | hc
          · exact hlt
          · exact Nat.lt_trans hlt (hp.1 c hc)
        · rename_i hge
          refine List.pairwise_cons.2 ⟨fun c hc => ?_, ih hp.2 fun c hc => hn c (by simp [hc])⟩
          rcases (Memory.mem_insert l a v c).1 hc with rfl | hc
          · show d.1 < a
            omega
          · exact hp.1 c hc
    exact key m h.1 hne
  · rcases (Memory.mem_insert m a v c).1 hc with rfl | hc
    · exact ⟨ha, hv⟩
    · exact h.2 c hc

/-- A write to a physical address keeps the canonical form. -/
theorem Memory.wf_write {m : Memory} (h : m.wf) {a : Nat} (ha : a < physicalOctets) (v : Byte) :
    (Memory.write m a v).wf := by
  unfold Memory.write
  split
  · exact Memory.wf_erase h a
  · rename_i hv
    exact Memory.wf_insert (Memory.wf_erase h a) ha hv fun _ hc => Memory.erase_ne hc

/-- Writes to physical addresses keep the canonical form. -/
theorem Memory.wf_writeAll {m : Memory} (h : m.wf) (l : List (PAddr × Byte)) : (Memory.writeAll m l).wf := by
  induction l generalizing m with
  | nil => exact h
  | cons c l ih => exact ih (Memory.wf_write h c.1.isLt c.2)

/-- An address no cell of the list names reads as before. -/
theorem Memory.read_writeAll_of_not_mem (m : Memory) (l : List (PAddr × Byte)) (q : PAddr)
    (h : q ∉ l.map Prod.fst) : (Memory.writeAll m l).read q.toNat = m.read q.toNat := by
  induction l generalizing m with
  | nil => rfl
  | cons c l ih =>
    simp only [List.map_cons, List.mem_cons, not_or] at h
    have hq : ¬ q.toNat = c.1.toNat := fun e => h.1 (BitVec.eq_of_toNat_eq e)
    simp only [Memory.writeAll]
    rw [ih _ h.2, Memory.read_write, if_neg hq]

/-- Memory right after reset has the canonical form. -/
theorem Memory.wf_reset : State.reset.mem.wf := Memory.wf_nil

end Sys2Proof.Machine
end

