-- ==== Sys2Proof/Laws/State.lean ====
section
/-! SUPPORT. One lemma per field per update of State, each true by definition, so that no later proof unfolds a record
update; then what the derived reads (a register, a page, the word step, the translations, an octet, a word) keep. -/

namespace Sys2Proof.Machine

variable (s : State)

/-! ## setReg -/

@[simp] theorem State.setReg_regs (r : Reg) (v : Word) : (s.setReg r v).regs = s.regs.set (regIndex r) v := rfl
@[simp] theorem State.setReg_pc (r : Reg) (v : Word) : (s.setReg r v).pc = s.pc := rfl
@[simp] theorem State.setReg_sp (r : Reg) (v : Word) : (s.setReg r v).sp = s.sp := rfl
@[simp] theorem State.setReg_ex (r : Reg) (v : Word) : (s.setReg r v).ex = s.ex := rfl
@[simp] theorem State.setReg_ia (r : Reg) (v : Word) : (s.setReg r v).ia = s.ia := rfl
@[simp] theorem State.setReg_ova (r : Reg) (v : Word) : (s.setReg r v).ova = s.ova := rfl
@[simp] theorem State.setReg_ovm (r : Reg) (v : Word) : (s.setReg r v).ovm = s.ovm := rfl
@[simp] theorem State.setReg_emu (r : Reg) (v : Word) : (s.setReg r v).emu = s.emu := rfl
@[simp] theorem State.setReg_mode (r : Reg) (v : Word) : (s.setReg r v).mode = s.mode := rfl
@[simp] theorem State.setReg_iq (r : Reg) (v : Word) : (s.setReg r v).iq = s.iq := rfl
@[simp] theorem State.setReg_qf (r : Reg) (v : Word) : (s.setReg r v).qf = s.qf := rfl
@[simp] theorem State.setReg_skip (r : Reg) (v : Word) : (s.setReg r v).skip = s.skip := rfl
@[simp] theorem State.setReg_byt (r : Reg) (v : Word) : (s.setReg r v).byt = s.byt := rfl
@[simp] theorem State.setReg_run (r : Reg) (v : Word) : (s.setReg r v).run = s.run := rfl
@[simp] theorem State.setReg_hcr (r : Reg) (v : Word) : (s.setReg r v).hcr = s.hcr := rfl
@[simp] theorem State.setReg_mem (r : Reg) (v : Word) : (s.setReg r v).mem = s.mem := rfl
@[simp] theorem State.setReg_cfg (r : Reg) (v : Word) : (s.setReg r v).cfg = s.cfg := rfl
@[simp] theorem State.setReg_inputs (r : Reg) (v : Word) : (s.setReg r v).inputs = s.inputs := rfl
@[simp] theorem State.setReg_busLog (r : Reg) (v : Word) : (s.setReg r v).busLog = s.busLog := rfl
@[simp] theorem State.setReg_turns (r : Reg) (v : Word) : (s.setReg r v).turns = s.turns := rfl

/-! ## setPc -/

@[simp] theorem State.setPc_regs (v : Word) : (s.setPc v).regs = s.regs := rfl
@[simp] theorem State.setPc_pc (v : Word) : (s.setPc v).pc = v := rfl
@[simp] theorem State.setPc_sp (v : Word) : (s.setPc v).sp = s.sp := rfl
@[simp] theorem State.setPc_ex (v : Word) : (s.setPc v).ex = s.ex := rfl
@[simp] theorem State.setPc_ia (v : Word) : (s.setPc v).ia = s.ia := rfl
@[simp] theorem State.setPc_ova (v : Word) : (s.setPc v).ova = s.ova := rfl
@[simp] theorem State.setPc_ovm (v : Word) : (s.setPc v).ovm = s.ovm := rfl
@[simp] theorem State.setPc_emu (v : Word) : (s.setPc v).emu = s.emu := rfl
@[simp] theorem State.setPc_mode (v : Word) : (s.setPc v).mode = s.mode := rfl
@[simp] theorem State.setPc_iq (v : Word) : (s.setPc v).iq = s.iq := rfl
@[simp] theorem State.setPc_qf (v : Word) : (s.setPc v).qf = s.qf := rfl
@[simp] theorem State.setPc_skip (v : Word) : (s.setPc v).skip = s.skip := rfl
@[simp] theorem State.setPc_byt (v : Word) : (s.setPc v).byt = s.byt := rfl
@[simp] theorem State.setPc_run (v : Word) : (s.setPc v).run = s.run := rfl
@[simp] theorem State.setPc_hcr (v : Word) : (s.setPc v).hcr = s.hcr := rfl
@[simp] theorem State.setPc_mem (v : Word) : (s.setPc v).mem = s.mem := rfl
@[simp] theorem State.setPc_cfg (v : Word) : (s.setPc v).cfg = s.cfg := rfl
@[simp] theorem State.setPc_inputs (v : Word) : (s.setPc v).inputs = s.inputs := rfl
@[simp] theorem State.setPc_busLog (v : Word) : (s.setPc v).busLog = s.busLog := rfl
@[simp] theorem State.setPc_turns (v : Word) : (s.setPc v).turns = s.turns := rfl

/-! ## setSp -/

@[simp] theorem State.setSp_regs (v : Word) : (s.setSp v).regs = s.regs := rfl
@[simp] theorem State.setSp_pc (v : Word) : (s.setSp v).pc = s.pc := rfl
@[simp] theorem State.setSp_sp (v : Word) : (s.setSp v).sp = v := rfl
@[simp] theorem State.setSp_ex (v : Word) : (s.setSp v).ex = s.ex := rfl
@[simp] theorem State.setSp_ia (v : Word) : (s.setSp v).ia = s.ia := rfl
@[simp] theorem State.setSp_ova (v : Word) : (s.setSp v).ova = s.ova := rfl
@[simp] theorem State.setSp_ovm (v : Word) : (s.setSp v).ovm = s.ovm := rfl
@[simp] theorem State.setSp_emu (v : Word) : (s.setSp v).emu = s.emu := rfl
@[simp] theorem State.setSp_mode (v : Word) : (s.setSp v).mode = s.mode := rfl
@[simp] theorem State.setSp_iq (v : Word) : (s.setSp v).iq = s.iq := rfl
@[simp] theorem State.setSp_qf (v : Word) : (s.setSp v).qf = s.qf := rfl
@[simp] theorem State.setSp_skip (v : Word) : (s.setSp v).skip = s.skip := rfl
@[simp] theorem State.setSp_byt (v : Word) : (s.setSp v).byt = s.byt := rfl
@[simp] theorem State.setSp_run (v : Word) : (s.setSp v).run = s.run := rfl
@[simp] theorem State.setSp_hcr (v : Word) : (s.setSp v).hcr = s.hcr := rfl
@[simp] theorem State.setSp_mem (v : Word) : (s.setSp v).mem = s.mem := rfl
@[simp] theorem State.setSp_cfg (v : Word) : (s.setSp v).cfg = s.cfg := rfl
@[simp] theorem State.setSp_inputs (v : Word) : (s.setSp v).inputs = s.inputs := rfl
@[simp] theorem State.setSp_busLog (v : Word) : (s.setSp v).busLog = s.busLog := rfl
@[simp] theorem State.setSp_turns (v : Word) : (s.setSp v).turns = s.turns := rfl

/-! ## setEx -/

@[simp] theorem State.setEx_regs (v : Word) : (s.setEx v).regs = s.regs := rfl
@[simp] theorem State.setEx_pc (v : Word) : (s.setEx v).pc = s.pc := rfl
@[simp] theorem State.setEx_sp (v : Word) : (s.setEx v).sp = s.sp := rfl
@[simp] theorem State.setEx_ex (v : Word) : (s.setEx v).ex = v := rfl
@[simp] theorem State.setEx_ia (v : Word) : (s.setEx v).ia = s.ia := rfl
@[simp] theorem State.setEx_ova (v : Word) : (s.setEx v).ova = s.ova := rfl
@[simp] theorem State.setEx_ovm (v : Word) : (s.setEx v).ovm = s.ovm := rfl
@[simp] theorem State.setEx_emu (v : Word) : (s.setEx v).emu = s.emu := rfl
@[simp] theorem State.setEx_mode (v : Word) : (s.setEx v).mode = s.mode := rfl
@[simp] theorem State.setEx_iq (v : Word) : (s.setEx v).iq = s.iq := rfl
@[simp] theorem State.setEx_qf (v : Word) : (s.setEx v).qf = s.qf := rfl
@[simp] theorem State.setEx_skip (v : Word) : (s.setEx v).skip = s.skip := rfl
@[simp] theorem State.setEx_byt (v : Word) : (s.setEx v).byt = s.byt := rfl
@[simp] theorem State.setEx_run (v : Word) : (s.setEx v).run = s.run := rfl
@[simp] theorem State.setEx_hcr (v : Word) : (s.setEx v).hcr = s.hcr := rfl
@[simp] theorem State.setEx_mem (v : Word) : (s.setEx v).mem = s.mem := rfl
@[simp] theorem State.setEx_cfg (v : Word) : (s.setEx v).cfg = s.cfg := rfl
@[simp] theorem State.setEx_inputs (v : Word) : (s.setEx v).inputs = s.inputs := rfl
@[simp] theorem State.setEx_busLog (v : Word) : (s.setEx v).busLog = s.busLog := rfl
@[simp] theorem State.setEx_turns (v : Word) : (s.setEx v).turns = s.turns := rfl

/-! ## setIa -/

@[simp] theorem State.setIa_regs (v : Word) : (s.setIa v).regs = s.regs := rfl
@[simp] theorem State.setIa_pc (v : Word) : (s.setIa v).pc = s.pc := rfl
@[simp] theorem State.setIa_sp (v : Word) : (s.setIa v).sp = s.sp := rfl
@[simp] theorem State.setIa_ex (v : Word) : (s.setIa v).ex = s.ex := rfl
@[simp] theorem State.setIa_ia (v : Word) : (s.setIa v).ia = v := rfl
@[simp] theorem State.setIa_ova (v : Word) : (s.setIa v).ova = s.ova := rfl
@[simp] theorem State.setIa_ovm (v : Word) : (s.setIa v).ovm = s.ovm := rfl
@[simp] theorem State.setIa_emu (v : Word) : (s.setIa v).emu = s.emu := rfl
@[simp] theorem State.setIa_mode (v : Word) : (s.setIa v).mode = s.mode := rfl
@[simp] theorem State.setIa_iq (v : Word) : (s.setIa v).iq = s.iq := rfl
@[simp] theorem State.setIa_qf (v : Word) : (s.setIa v).qf = s.qf := rfl
@[simp] theorem State.setIa_skip (v : Word) : (s.setIa v).skip = s.skip := rfl
@[simp] theorem State.setIa_byt (v : Word) : (s.setIa v).byt = s.byt := rfl
@[simp] theorem State.setIa_run (v : Word) : (s.setIa v).run = s.run := rfl
@[simp] theorem State.setIa_hcr (v : Word) : (s.setIa v).hcr = s.hcr := rfl
@[simp] theorem State.setIa_mem (v : Word) : (s.setIa v).mem = s.mem := rfl
@[simp] theorem State.setIa_cfg (v : Word) : (s.setIa v).cfg = s.cfg := rfl
@[simp] theorem State.setIa_inputs (v : Word) : (s.setIa v).inputs = s.inputs := rfl
@[simp] theorem State.setIa_busLog (v : Word) : (s.setIa v).busLog = s.busLog := rfl
@[simp] theorem State.setIa_turns (v : Word) : (s.setIa v).turns = s.turns := rfl

/-! ## setOva -/

@[simp] theorem State.setOva_regs (v : Word) : (s.setOva v).regs = s.regs := rfl
@[simp] theorem State.setOva_pc (v : Word) : (s.setOva v).pc = s.pc := rfl
@[simp] theorem State.setOva_sp (v : Word) : (s.setOva v).sp = s.sp := rfl
@[simp] theorem State.setOva_ex (v : Word) : (s.setOva v).ex = s.ex := rfl
@[simp] theorem State.setOva_ia (v : Word) : (s.setOva v).ia = s.ia := rfl
@[simp] theorem State.setOva_ova (v : Word) : (s.setOva v).ova = v := rfl
@[simp] theorem State.setOva_ovm (v : Word) : (s.setOva v).ovm = s.ovm := rfl
@[simp] theorem State.setOva_emu (v : Word) : (s.setOva v).emu = s.emu := rfl
@[simp] theorem State.setOva_mode (v : Word) : (s.setOva v).mode = s.mode := rfl
@[simp] theorem State.setOva_iq (v : Word) : (s.setOva v).iq = s.iq := rfl
@[simp] theorem State.setOva_qf (v : Word) : (s.setOva v).qf = s.qf := rfl
@[simp] theorem State.setOva_skip (v : Word) : (s.setOva v).skip = s.skip := rfl
@[simp] theorem State.setOva_byt (v : Word) : (s.setOva v).byt = s.byt := rfl
@[simp] theorem State.setOva_run (v : Word) : (s.setOva v).run = s.run := rfl
@[simp] theorem State.setOva_hcr (v : Word) : (s.setOva v).hcr = s.hcr := rfl
@[simp] theorem State.setOva_mem (v : Word) : (s.setOva v).mem = s.mem := rfl
@[simp] theorem State.setOva_cfg (v : Word) : (s.setOva v).cfg = s.cfg := rfl
@[simp] theorem State.setOva_inputs (v : Word) : (s.setOva v).inputs = s.inputs := rfl
@[simp] theorem State.setOva_busLog (v : Word) : (s.setOva v).busLog = s.busLog := rfl
@[simp] theorem State.setOva_turns (v : Word) : (s.setOva v).turns = s.turns := rfl

/-! ## setOvm -/

@[simp] theorem State.setOvm_regs (v : Word) : (s.setOvm v).regs = s.regs := rfl
@[simp] theorem State.setOvm_pc (v : Word) : (s.setOvm v).pc = s.pc := rfl
@[simp] theorem State.setOvm_sp (v : Word) : (s.setOvm v).sp = s.sp := rfl
@[simp] theorem State.setOvm_ex (v : Word) : (s.setOvm v).ex = s.ex := rfl
@[simp] theorem State.setOvm_ia (v : Word) : (s.setOvm v).ia = s.ia := rfl
@[simp] theorem State.setOvm_ova (v : Word) : (s.setOvm v).ova = s.ova := rfl
@[simp] theorem State.setOvm_ovm (v : Word) : (s.setOvm v).ovm = v := rfl
@[simp] theorem State.setOvm_emu (v : Word) : (s.setOvm v).emu = s.emu := rfl
@[simp] theorem State.setOvm_mode (v : Word) : (s.setOvm v).mode = s.mode := rfl
@[simp] theorem State.setOvm_iq (v : Word) : (s.setOvm v).iq = s.iq := rfl
@[simp] theorem State.setOvm_qf (v : Word) : (s.setOvm v).qf = s.qf := rfl
@[simp] theorem State.setOvm_skip (v : Word) : (s.setOvm v).skip = s.skip := rfl
@[simp] theorem State.setOvm_byt (v : Word) : (s.setOvm v).byt = s.byt := rfl
@[simp] theorem State.setOvm_run (v : Word) : (s.setOvm v).run = s.run := rfl
@[simp] theorem State.setOvm_hcr (v : Word) : (s.setOvm v).hcr = s.hcr := rfl
@[simp] theorem State.setOvm_mem (v : Word) : (s.setOvm v).mem = s.mem := rfl
@[simp] theorem State.setOvm_cfg (v : Word) : (s.setOvm v).cfg = s.cfg := rfl
@[simp] theorem State.setOvm_inputs (v : Word) : (s.setOvm v).inputs = s.inputs := rfl
@[simp] theorem State.setOvm_busLog (v : Word) : (s.setOvm v).busLog = s.busLog := rfl
@[simp] theorem State.setOvm_turns (v : Word) : (s.setOvm v).turns = s.turns := rfl

/-! ## setPage -/

@[simp] theorem State.setPage_regs (b : Block) (p : Page) : (s.setPage b p).regs = s.regs := rfl
@[simp] theorem State.setPage_pc (b : Block) (p : Page) : (s.setPage b p).pc = s.pc := rfl
@[simp] theorem State.setPage_sp (b : Block) (p : Page) : (s.setPage b p).sp = s.sp := rfl
@[simp] theorem State.setPage_ex (b : Block) (p : Page) : (s.setPage b p).ex = s.ex := rfl
@[simp] theorem State.setPage_ia (b : Block) (p : Page) : (s.setPage b p).ia = s.ia := rfl
@[simp] theorem State.setPage_ova (b : Block) (p : Page) : (s.setPage b p).ova = s.ova := rfl
@[simp] theorem State.setPage_ovm (b : Block) (p : Page) : (s.setPage b p).ovm = s.ovm := rfl
@[simp] theorem State.setPage_emu (b : Block) (p : Page) : (s.setPage b p).emu = s.emu.set b.toFin p := rfl
@[simp] theorem State.setPage_mode (b : Block) (p : Page) : (s.setPage b p).mode = s.mode := rfl
@[simp] theorem State.setPage_iq (b : Block) (p : Page) : (s.setPage b p).iq = s.iq := rfl
@[simp] theorem State.setPage_qf (b : Block) (p : Page) : (s.setPage b p).qf = s.qf := rfl
@[simp] theorem State.setPage_skip (b : Block) (p : Page) : (s.setPage b p).skip = s.skip := rfl
@[simp] theorem State.setPage_byt (b : Block) (p : Page) : (s.setPage b p).byt = s.byt := rfl
@[simp] theorem State.setPage_run (b : Block) (p : Page) : (s.setPage b p).run = s.run := rfl
@[simp] theorem State.setPage_hcr (b : Block) (p : Page) : (s.setPage b p).hcr = s.hcr := rfl
@[simp] theorem State.setPage_mem (b : Block) (p : Page) : (s.setPage b p).mem = s.mem := rfl
@[simp] theorem State.setPage_cfg (b : Block) (p : Page) : (s.setPage b p).cfg = s.cfg := rfl
@[simp] theorem State.setPage_inputs (b : Block) (p : Page) : (s.setPage b p).inputs = s.inputs := rfl
@[simp] theorem State.setPage_busLog (b : Block) (p : Page) : (s.setPage b p).busLog = s.busLog := rfl
@[simp] theorem State.setPage_turns (b : Block) (p : Page) : (s.setPage b p).turns = s.turns := rfl

/-! ## setMode -/

@[simp] theorem State.setMode_regs (m : Mode) : (s.setMode m).regs = s.regs := rfl
@[simp] theorem State.setMode_pc (m : Mode) : (s.setMode m).pc = s.pc := rfl
@[simp] theorem State.setMode_sp (m : Mode) : (s.setMode m).sp = s.sp := rfl
@[simp] theorem State.setMode_ex (m : Mode) : (s.setMode m).ex = s.ex := rfl
@[simp] theorem State.setMode_ia (m : Mode) : (s.setMode m).ia = s.ia := rfl
@[simp] theorem State.setMode_ova (m : Mode) : (s.setMode m).ova = s.ova := rfl
@[simp] theorem State.setMode_ovm (m : Mode) : (s.setMode m).ovm = s.ovm := rfl
@[simp] theorem State.setMode_emu (m : Mode) : (s.setMode m).emu = s.emu := rfl
@[simp] theorem State.setMode_mode (m : Mode) : (s.setMode m).mode = m := rfl
@[simp] theorem State.setMode_iq (m : Mode) : (s.setMode m).iq = s.iq := rfl
@[simp] theorem State.setMode_qf (m : Mode) : (s.setMode m).qf = s.qf := rfl
@[simp] theorem State.setMode_skip (m : Mode) : (s.setMode m).skip = s.skip := rfl
@[simp] theorem State.setMode_byt (m : Mode) : (s.setMode m).byt = s.byt := rfl
@[simp] theorem State.setMode_run (m : Mode) : (s.setMode m).run = s.run := rfl
@[simp] theorem State.setMode_hcr (m : Mode) : (s.setMode m).hcr = s.hcr := rfl
@[simp] theorem State.setMode_mem (m : Mode) : (s.setMode m).mem = s.mem := rfl
@[simp] theorem State.setMode_cfg (m : Mode) : (s.setMode m).cfg = s.cfg := rfl
@[simp] theorem State.setMode_inputs (m : Mode) : (s.setMode m).inputs = s.inputs := rfl
@[simp] theorem State.setMode_busLog (m : Mode) : (s.setMode m).busLog = s.busLog := rfl
@[simp] theorem State.setMode_turns (m : Mode) : (s.setMode m).turns = s.turns := rfl

/-! ## setIq -/

@[simp] theorem State.setIq_regs (ms : List Word) : (s.setIq ms).regs = s.regs := rfl
@[simp] theorem State.setIq_pc (ms : List Word) : (s.setIq ms).pc = s.pc := rfl
@[simp] theorem State.setIq_sp (ms : List Word) : (s.setIq ms).sp = s.sp := rfl
@[simp] theorem State.setIq_ex (ms : List Word) : (s.setIq ms).ex = s.ex := rfl
@[simp] theorem State.setIq_ia (ms : List Word) : (s.setIq ms).ia = s.ia := rfl
@[simp] theorem State.setIq_ova (ms : List Word) : (s.setIq ms).ova = s.ova := rfl
@[simp] theorem State.setIq_ovm (ms : List Word) : (s.setIq ms).ovm = s.ovm := rfl
@[simp] theorem State.setIq_emu (ms : List Word) : (s.setIq ms).emu = s.emu := rfl
@[simp] theorem State.setIq_mode (ms : List Word) : (s.setIq ms).mode = s.mode := rfl
@[simp] theorem State.setIq_iq (ms : List Word) : (s.setIq ms).iq = ms := rfl
@[simp] theorem State.setIq_qf (ms : List Word) : (s.setIq ms).qf = s.qf := rfl
@[simp] theorem State.setIq_skip (ms : List Word) : (s.setIq ms).skip = s.skip := rfl
@[simp] theorem State.setIq_byt (ms : List Word) : (s.setIq ms).byt = s.byt := rfl
@[simp] theorem State.setIq_run (ms : List Word) : (s.setIq ms).run = s.run := rfl
@[simp] theorem State.setIq_hcr (ms : List Word) : (s.setIq ms).hcr = s.hcr := rfl
@[simp] theorem State.setIq_mem (ms : List Word) : (s.setIq ms).mem = s.mem := rfl
@[simp] theorem State.setIq_cfg (ms : List Word) : (s.setIq ms).cfg = s.cfg := rfl
@[simp] theorem State.setIq_inputs (ms : List Word) : (s.setIq ms).inputs = s.inputs := rfl
@[simp] theorem State.setIq_busLog (ms : List Word) : (s.setIq ms).busLog = s.busLog := rfl
@[simp] theorem State.setIq_turns (ms : List Word) : (s.setIq ms).turns = s.turns := rfl

/-! ## setQf -/

@[simp] theorem State.setQf_regs (b : Bool) : (s.setQf b).regs = s.regs := rfl
@[simp] theorem State.setQf_pc (b : Bool) : (s.setQf b).pc = s.pc := rfl
@[simp] theorem State.setQf_sp (b : Bool) : (s.setQf b).sp = s.sp := rfl
@[simp] theorem State.setQf_ex (b : Bool) : (s.setQf b).ex = s.ex := rfl
@[simp] theorem State.setQf_ia (b : Bool) : (s.setQf b).ia = s.ia := rfl
@[simp] theorem State.setQf_ova (b : Bool) : (s.setQf b).ova = s.ova := rfl
@[simp] theorem State.setQf_ovm (b : Bool) : (s.setQf b).ovm = s.ovm := rfl
@[simp] theorem State.setQf_emu (b : Bool) : (s.setQf b).emu = s.emu := rfl
@[simp] theorem State.setQf_mode (b : Bool) : (s.setQf b).mode = s.mode := rfl
@[simp] theorem State.setQf_iq (b : Bool) : (s.setQf b).iq = s.iq := rfl
@[simp] theorem State.setQf_qf (b : Bool) : (s.setQf b).qf = b := rfl
@[simp] theorem State.setQf_skip (b : Bool) : (s.setQf b).skip = s.skip := rfl
@[simp] theorem State.setQf_byt (b : Bool) : (s.setQf b).byt = s.byt := rfl
@[simp] theorem State.setQf_run (b : Bool) : (s.setQf b).run = s.run := rfl
@[simp] theorem State.setQf_hcr (b : Bool) : (s.setQf b).hcr = s.hcr := rfl
@[simp] theorem State.setQf_mem (b : Bool) : (s.setQf b).mem = s.mem := rfl
@[simp] theorem State.setQf_cfg (b : Bool) : (s.setQf b).cfg = s.cfg := rfl
@[simp] theorem State.setQf_inputs (b : Bool) : (s.setQf b).inputs = s.inputs := rfl
@[simp] theorem State.setQf_busLog (b : Bool) : (s.setQf b).busLog = s.busLog := rfl
@[simp] theorem State.setQf_turns (b : Bool) : (s.setQf b).turns = s.turns := rfl

/-! ## setSkip -/

@[simp] theorem State.setSkip_regs (b : Bool) : (s.setSkip b).regs = s.regs := rfl
@[simp] theorem State.setSkip_pc (b : Bool) : (s.setSkip b).pc = s.pc := rfl
@[simp] theorem State.setSkip_sp (b : Bool) : (s.setSkip b).sp = s.sp := rfl
@[simp] theorem State.setSkip_ex (b : Bool) : (s.setSkip b).ex = s.ex := rfl
@[simp] theorem State.setSkip_ia (b : Bool) : (s.setSkip b).ia = s.ia := rfl
@[simp] theorem State.setSkip_ova (b : Bool) : (s.setSkip b).ova = s.ova := rfl
@[simp] theorem State.setSkip_ovm (b : Bool) : (s.setSkip b).ovm = s.ovm := rfl
@[simp] theorem State.setSkip_emu (b : Bool) : (s.setSkip b).emu = s.emu := rfl
@[simp] theorem State.setSkip_mode (b : Bool) : (s.setSkip b).mode = s.mode := rfl
@[simp] theorem State.setSkip_iq (b : Bool) : (s.setSkip b).iq = s.iq := rfl
@[simp] theorem State.setSkip_qf (b : Bool) : (s.setSkip b).qf = s.qf := rfl
@[simp] theorem State.setSkip_skip (b : Bool) : (s.setSkip b).skip = b := rfl
@[simp] theorem State.setSkip_byt (b : Bool) : (s.setSkip b).byt = s.byt := rfl
@[simp] theorem State.setSkip_run (b : Bool) : (s.setSkip b).run = s.run := rfl
@[simp] theorem State.setSkip_hcr (b : Bool) : (s.setSkip b).hcr = s.hcr := rfl
@[simp] theorem State.setSkip_mem (b : Bool) : (s.setSkip b).mem = s.mem := rfl
@[simp] theorem State.setSkip_cfg (b : Bool) : (s.setSkip b).cfg = s.cfg := rfl
@[simp] theorem State.setSkip_inputs (b : Bool) : (s.setSkip b).inputs = s.inputs := rfl
@[simp] theorem State.setSkip_busLog (b : Bool) : (s.setSkip b).busLog = s.busLog := rfl
@[simp] theorem State.setSkip_turns (b : Bool) : (s.setSkip b).turns = s.turns := rfl

/-! ## setByt -/

@[simp] theorem State.setByt_regs (m : ByteMask) : (s.setByt m).regs = s.regs := rfl
@[simp] theorem State.setByt_pc (m : ByteMask) : (s.setByt m).pc = s.pc := rfl
@[simp] theorem State.setByt_sp (m : ByteMask) : (s.setByt m).sp = s.sp := rfl
@[simp] theorem State.setByt_ex (m : ByteMask) : (s.setByt m).ex = s.ex := rfl
@[simp] theorem State.setByt_ia (m : ByteMask) : (s.setByt m).ia = s.ia := rfl
@[simp] theorem State.setByt_ova (m : ByteMask) : (s.setByt m).ova = s.ova := rfl
@[simp] theorem State.setByt_ovm (m : ByteMask) : (s.setByt m).ovm = s.ovm := rfl
@[simp] theorem State.setByt_emu (m : ByteMask) : (s.setByt m).emu = s.emu := rfl
@[simp] theorem State.setByt_mode (m : ByteMask) : (s.setByt m).mode = s.mode := rfl
@[simp] theorem State.setByt_iq (m : ByteMask) : (s.setByt m).iq = s.iq := rfl
@[simp] theorem State.setByt_qf (m : ByteMask) : (s.setByt m).qf = s.qf := rfl
@[simp] theorem State.setByt_skip (m : ByteMask) : (s.setByt m).skip = s.skip := rfl
@[simp] theorem State.setByt_byt (m : ByteMask) : (s.setByt m).byt = m := rfl
@[simp] theorem State.setByt_run (m : ByteMask) : (s.setByt m).run = s.run := rfl
@[simp] theorem State.setByt_hcr (m : ByteMask) : (s.setByt m).hcr = s.hcr := rfl
@[simp] theorem State.setByt_mem (m : ByteMask) : (s.setByt m).mem = s.mem := rfl
@[simp] theorem State.setByt_cfg (m : ByteMask) : (s.setByt m).cfg = s.cfg := rfl
@[simp] theorem State.setByt_inputs (m : ByteMask) : (s.setByt m).inputs = s.inputs := rfl
@[simp] theorem State.setByt_busLog (m : ByteMask) : (s.setByt m).busLog = s.busLog := rfl
@[simp] theorem State.setByt_turns (m : ByteMask) : (s.setByt m).turns = s.turns := rfl

/-! ## setRun -/

@[simp] theorem State.setRun_regs (r : RunState) : (s.setRun r).regs = s.regs := rfl
@[simp] theorem State.setRun_pc (r : RunState) : (s.setRun r).pc = s.pc := rfl
@[simp] theorem State.setRun_sp (r : RunState) : (s.setRun r).sp = s.sp := rfl
@[simp] theorem State.setRun_ex (r : RunState) : (s.setRun r).ex = s.ex := rfl
@[simp] theorem State.setRun_ia (r : RunState) : (s.setRun r).ia = s.ia := rfl
@[simp] theorem State.setRun_ova (r : RunState) : (s.setRun r).ova = s.ova := rfl
@[simp] theorem State.setRun_ovm (r : RunState) : (s.setRun r).ovm = s.ovm := rfl
@[simp] theorem State.setRun_emu (r : RunState) : (s.setRun r).emu = s.emu := rfl
@[simp] theorem State.setRun_mode (r : RunState) : (s.setRun r).mode = s.mode := rfl
@[simp] theorem State.setRun_iq (r : RunState) : (s.setRun r).iq = s.iq := rfl
@[simp] theorem State.setRun_qf (r : RunState) : (s.setRun r).qf = s.qf := rfl
@[simp] theorem State.setRun_skip (r : RunState) : (s.setRun r).skip = s.skip := rfl
@[simp] theorem State.setRun_byt (r : RunState) : (s.setRun r).byt = s.byt := rfl
@[simp] theorem State.setRun_run (r : RunState) : (s.setRun r).run = r := rfl
@[simp] theorem State.setRun_hcr (r : RunState) : (s.setRun r).hcr = s.hcr := rfl
@[simp] theorem State.setRun_mem (r : RunState) : (s.setRun r).mem = s.mem := rfl
@[simp] theorem State.setRun_cfg (r : RunState) : (s.setRun r).cfg = s.cfg := rfl
@[simp] theorem State.setRun_inputs (r : RunState) : (s.setRun r).inputs = s.inputs := rfl
@[simp] theorem State.setRun_busLog (r : RunState) : (s.setRun r).busLog = s.busLog := rfl
@[simp] theorem State.setRun_turns (r : RunState) : (s.setRun r).turns = s.turns := rfl

/-! ## setHcr -/

@[simp] theorem State.setHcr_regs (v : Word) : (s.setHcr v).regs = s.regs := rfl
@[simp] theorem State.setHcr_pc (v : Word) : (s.setHcr v).pc = s.pc := rfl
@[simp] theorem State.setHcr_sp (v : Word) : (s.setHcr v).sp = s.sp := rfl
@[simp] theorem State.setHcr_ex (v : Word) : (s.setHcr v).ex = s.ex := rfl
@[simp] theorem State.setHcr_ia (v : Word) : (s.setHcr v).ia = s.ia := rfl
@[simp] theorem State.setHcr_ova (v : Word) : (s.setHcr v).ova = s.ova := rfl
@[simp] theorem State.setHcr_ovm (v : Word) : (s.setHcr v).ovm = s.ovm := rfl
@[simp] theorem State.setHcr_emu (v : Word) : (s.setHcr v).emu = s.emu := rfl
@[simp] theorem State.setHcr_mode (v : Word) : (s.setHcr v).mode = s.mode := rfl
@[simp] theorem State.setHcr_iq (v : Word) : (s.setHcr v).iq = s.iq := rfl
@[simp] theorem State.setHcr_qf (v : Word) : (s.setHcr v).qf = s.qf := rfl
@[simp] theorem State.setHcr_skip (v : Word) : (s.setHcr v).skip = s.skip := rfl
@[simp] theorem State.setHcr_byt (v : Word) : (s.setHcr v).byt = s.byt := rfl
@[simp] theorem State.setHcr_run (v : Word) : (s.setHcr v).run = s.run := rfl
@[simp] theorem State.setHcr_hcr (v : Word) : (s.setHcr v).hcr = v := rfl
@[simp] theorem State.setHcr_mem (v : Word) : (s.setHcr v).mem = s.mem := rfl
@[simp] theorem State.setHcr_cfg (v : Word) : (s.setHcr v).cfg = s.cfg := rfl
@[simp] theorem State.setHcr_inputs (v : Word) : (s.setHcr v).inputs = s.inputs := rfl
@[simp] theorem State.setHcr_busLog (v : Word) : (s.setHcr v).busLog = s.busLog := rfl
@[simp] theorem State.setHcr_turns (v : Word) : (s.setHcr v).turns = s.turns := rfl

/-! ## beginTurn -/

@[simp] theorem State.beginTurn_regs : s.beginTurn.regs = s.regs := rfl
@[simp] theorem State.beginTurn_pc : s.beginTurn.pc = s.pc := rfl
@[simp] theorem State.beginTurn_sp : s.beginTurn.sp = s.sp := rfl
@[simp] theorem State.beginTurn_ex : s.beginTurn.ex = s.ex := rfl
@[simp] theorem State.beginTurn_ia : s.beginTurn.ia = s.ia := rfl
@[simp] theorem State.beginTurn_ova : s.beginTurn.ova = s.ova := rfl
@[simp] theorem State.beginTurn_ovm : s.beginTurn.ovm = s.ovm := rfl
@[simp] theorem State.beginTurn_emu : s.beginTurn.emu = s.emu := rfl
@[simp] theorem State.beginTurn_mode : s.beginTurn.mode = s.mode := rfl
@[simp] theorem State.beginTurn_iq : s.beginTurn.iq = s.iq := rfl
@[simp] theorem State.beginTurn_qf : s.beginTurn.qf = s.qf := rfl
@[simp] theorem State.beginTurn_skip : s.beginTurn.skip = s.skip := rfl
@[simp] theorem State.beginTurn_byt : s.beginTurn.byt = s.byt := rfl
@[simp] theorem State.beginTurn_run : s.beginTurn.run = s.run := rfl
@[simp] theorem State.beginTurn_hcr : s.beginTurn.hcr = s.hcr := rfl
@[simp] theorem State.beginTurn_mem : s.beginTurn.mem = s.mem := rfl
@[simp] theorem State.beginTurn_cfg : s.beginTurn.cfg = s.cfg := rfl
@[simp] theorem State.beginTurn_inputs : s.beginTurn.inputs = s.inputs.tail := rfl
@[simp] theorem State.beginTurn_busLog : s.beginTurn.busLog = s.busLog := rfl
@[simp] theorem State.beginTurn_turns : s.beginTurn.turns = s.turns + 1 := rfl

/-! ## logBus -/

@[simp] theorem State.logBus_regs (e : BusEvent) : (s.logBus e).regs = s.regs := rfl
@[simp] theorem State.logBus_pc (e : BusEvent) : (s.logBus e).pc = s.pc := rfl
@[simp] theorem State.logBus_sp (e : BusEvent) : (s.logBus e).sp = s.sp := rfl
@[simp] theorem State.logBus_ex (e : BusEvent) : (s.logBus e).ex = s.ex := rfl
@[simp] theorem State.logBus_ia (e : BusEvent) : (s.logBus e).ia = s.ia := rfl
@[simp] theorem State.logBus_ova (e : BusEvent) : (s.logBus e).ova = s.ova := rfl
@[simp] theorem State.logBus_ovm (e : BusEvent) : (s.logBus e).ovm = s.ovm := rfl
@[simp] theorem State.logBus_emu (e : BusEvent) : (s.logBus e).emu = s.emu := rfl
@[simp] theorem State.logBus_mode (e : BusEvent) : (s.logBus e).mode = s.mode := rfl
@[simp] theorem State.logBus_iq (e : BusEvent) : (s.logBus e).iq = s.iq := rfl
@[simp] theorem State.logBus_qf (e : BusEvent) : (s.logBus e).qf = s.qf := rfl
@[simp] theorem State.logBus_skip (e : BusEvent) : (s.logBus e).skip = s.skip := rfl
@[simp] theorem State.logBus_byt (e : BusEvent) : (s.logBus e).byt = s.byt := rfl
@[simp] theorem State.logBus_run (e : BusEvent) : (s.logBus e).run = s.run := rfl
@[simp] theorem State.logBus_hcr (e : BusEvent) : (s.logBus e).hcr = s.hcr := rfl
@[simp] theorem State.logBus_mem (e : BusEvent) : (s.logBus e).mem = s.mem := rfl
@[simp] theorem State.logBus_cfg (e : BusEvent) : (s.logBus e).cfg = s.cfg := rfl
@[simp] theorem State.logBus_inputs (e : BusEvent) : (s.logBus e).inputs = s.inputs := rfl
@[simp] theorem State.logBus_busLog (e : BusEvent) : (s.logBus e).busLog = s.busLog ++ [e] := rfl
@[simp] theorem State.logBus_turns (e : BusEvent) : (s.logBus e).turns = s.turns := rfl

/-! ## storeOctets -/

@[simp] theorem State.storeOctets_regs (l : List (PAddr × Byte)) : (s.storeOctets l).regs = s.regs := rfl
@[simp] theorem State.storeOctets_pc (l : List (PAddr × Byte)) : (s.storeOctets l).pc = s.pc := rfl
@[simp] theorem State.storeOctets_sp (l : List (PAddr × Byte)) : (s.storeOctets l).sp = s.sp := rfl
@[simp] theorem State.storeOctets_ex (l : List (PAddr × Byte)) : (s.storeOctets l).ex = s.ex := rfl
@[simp] theorem State.storeOctets_ia (l : List (PAddr × Byte)) : (s.storeOctets l).ia = s.ia := rfl
@[simp] theorem State.storeOctets_ova (l : List (PAddr × Byte)) : (s.storeOctets l).ova = s.ova := rfl
@[simp] theorem State.storeOctets_ovm (l : List (PAddr × Byte)) : (s.storeOctets l).ovm = s.ovm := rfl
@[simp] theorem State.storeOctets_emu (l : List (PAddr × Byte)) : (s.storeOctets l).emu = s.emu := rfl
@[simp] theorem State.storeOctets_mode (l : List (PAddr × Byte)) : (s.storeOctets l).mode = s.mode := rfl
@[simp] theorem State.storeOctets_iq (l : List (PAddr × Byte)) : (s.storeOctets l).iq = s.iq := rfl
@[simp] theorem State.storeOctets_qf (l : List (PAddr × Byte)) : (s.storeOctets l).qf = s.qf := rfl
@[simp] theorem State.storeOctets_skip (l : List (PAddr × Byte)) : (s.storeOctets l).skip = s.skip := rfl
@[simp] theorem State.storeOctets_byt (l : List (PAddr × Byte)) : (s.storeOctets l).byt = s.byt := rfl
@[simp] theorem State.storeOctets_run (l : List (PAddr × Byte)) : (s.storeOctets l).run = s.run := rfl
@[simp] theorem State.storeOctets_hcr (l : List (PAddr × Byte)) : (s.storeOctets l).hcr = s.hcr := rfl
@[simp] theorem State.storeOctets_mem (l : List (PAddr × Byte)) : (s.storeOctets l).mem = Memory.writeAll s.mem l := rfl
@[simp] theorem State.storeOctets_cfg (l : List (PAddr × Byte)) : (s.storeOctets l).cfg = s.cfg := rfl
@[simp] theorem State.storeOctets_inputs (l : List (PAddr × Byte)) : (s.storeOctets l).inputs = s.inputs := rfl
@[simp] theorem State.storeOctets_busLog (l : List (PAddr × Byte)) : (s.storeOctets l).busLog = s.busLog := rfl
@[simp] theorem State.storeOctets_turns (l : List (PAddr × Byte)) : (s.storeOctets l).turns = s.turns := rfl

/-! ## noteRead -/

@[simp] theorem State.noteRead_regs (l : List PAddr) : (s.noteRead l).regs = s.regs := rfl
@[simp] theorem State.noteRead_pc (l : List PAddr) : (s.noteRead l).pc = s.pc := rfl
@[simp] theorem State.noteRead_sp (l : List PAddr) : (s.noteRead l).sp = s.sp := rfl
@[simp] theorem State.noteRead_ex (l : List PAddr) : (s.noteRead l).ex = s.ex := rfl
@[simp] theorem State.noteRead_ia (l : List PAddr) : (s.noteRead l).ia = s.ia := rfl
@[simp] theorem State.noteRead_ova (l : List PAddr) : (s.noteRead l).ova = s.ova := rfl
@[simp] theorem State.noteRead_ovm (l : List PAddr) : (s.noteRead l).ovm = s.ovm := rfl
@[simp] theorem State.noteRead_emu (l : List PAddr) : (s.noteRead l).emu = s.emu := rfl
@[simp] theorem State.noteRead_mode (l : List PAddr) : (s.noteRead l).mode = s.mode := rfl
@[simp] theorem State.noteRead_iq (l : List PAddr) : (s.noteRead l).iq = s.iq := rfl
@[simp] theorem State.noteRead_qf (l : List PAddr) : (s.noteRead l).qf = s.qf := rfl
@[simp] theorem State.noteRead_skip (l : List PAddr) : (s.noteRead l).skip = s.skip := rfl
@[simp] theorem State.noteRead_byt (l : List PAddr) : (s.noteRead l).byt = s.byt := rfl
@[simp] theorem State.noteRead_run (l : List PAddr) : (s.noteRead l).run = s.run := rfl
@[simp] theorem State.noteRead_hcr (l : List PAddr) : (s.noteRead l).hcr = s.hcr := rfl
@[simp] theorem State.noteRead_mem (l : List PAddr) : (s.noteRead l).mem = s.mem := rfl
@[simp] theorem State.noteRead_cfg (l : List PAddr) : (s.noteRead l).cfg = s.cfg := rfl
@[simp] theorem State.noteRead_inputs (l : List PAddr) : (s.noteRead l).inputs = s.inputs := rfl
@[simp] theorem State.noteRead_busLog (l : List PAddr) : (s.noteRead l).busLog = s.busLog ++ s.readEvents l := rfl
@[simp] theorem State.noteRead_turns (l : List PAddr) : (s.noteRead l).turns = s.turns := rfl

/-! ## afterRead -/

@[simp] theorem State.afterRead_regs (va : Word) : (s.afterRead va).regs = s.regs := rfl
@[simp] theorem State.afterRead_pc (va : Word) : (s.afterRead va).pc = s.pc := rfl
@[simp] theorem State.afterRead_sp (va : Word) : (s.afterRead va).sp = s.sp := rfl
@[simp] theorem State.afterRead_ex (va : Word) : (s.afterRead va).ex = s.ex := rfl
@[simp] theorem State.afterRead_ia (va : Word) : (s.afterRead va).ia = s.ia := rfl
@[simp] theorem State.afterRead_ova (va : Word) : (s.afterRead va).ova = s.ova := rfl
@[simp] theorem State.afterRead_ovm (va : Word) : (s.afterRead va).ovm = s.ovm := rfl
@[simp] theorem State.afterRead_emu (va : Word) : (s.afterRead va).emu = s.emu := rfl
@[simp] theorem State.afterRead_mode (va : Word) : (s.afterRead va).mode = s.mode := rfl
@[simp] theorem State.afterRead_iq (va : Word) : (s.afterRead va).iq = s.iq := rfl
@[simp] theorem State.afterRead_qf (va : Word) : (s.afterRead va).qf = s.qf := rfl
@[simp] theorem State.afterRead_skip (va : Word) : (s.afterRead va).skip = s.skip := rfl
@[simp] theorem State.afterRead_byt (va : Word) : (s.afterRead va).byt = s.byt := rfl
@[simp] theorem State.afterRead_run (va : Word) : (s.afterRead va).run = s.run := rfl
@[simp] theorem State.afterRead_hcr (va : Word) : (s.afterRead va).hcr = s.hcr := rfl
@[simp] theorem State.afterRead_mem (va : Word) : (s.afterRead va).mem = s.mem := rfl
@[simp] theorem State.afterRead_cfg (va : Word) : (s.afterRead va).cfg = s.cfg := rfl
@[simp] theorem State.afterRead_inputs (va : Word) : (s.afterRead va).inputs = s.inputs := rfl
@[simp] theorem State.afterRead_busLog (va : Word) : (s.afterRead va).busLog = s.busLog ++ s.readEvents (s.wordAddrs va) := rfl
@[simp] theorem State.afterRead_turns (va : Word) : (s.afterRead va).turns = s.turns := rfl

/-! ## setOctet -/

@[simp] theorem State.setOctet_regs (p : PAddr) (v : Byte) : (s.setOctet p v).regs = s.regs := rfl
@[simp] theorem State.setOctet_pc (p : PAddr) (v : Byte) : (s.setOctet p v).pc = s.pc := rfl
@[simp] theorem State.setOctet_sp (p : PAddr) (v : Byte) : (s.setOctet p v).sp = s.sp := rfl
@[simp] theorem State.setOctet_ex (p : PAddr) (v : Byte) : (s.setOctet p v).ex = s.ex := rfl
@[simp] theorem State.setOctet_ia (p : PAddr) (v : Byte) : (s.setOctet p v).ia = s.ia := rfl
@[simp] theorem State.setOctet_ova (p : PAddr) (v : Byte) : (s.setOctet p v).ova = s.ova := rfl
@[simp] theorem State.setOctet_ovm (p : PAddr) (v : Byte) : (s.setOctet p v).ovm = s.ovm := rfl
@[simp] theorem State.setOctet_emu (p : PAddr) (v : Byte) : (s.setOctet p v).emu = s.emu := rfl
@[simp] theorem State.setOctet_mode (p : PAddr) (v : Byte) : (s.setOctet p v).mode = s.mode := rfl
@[simp] theorem State.setOctet_iq (p : PAddr) (v : Byte) : (s.setOctet p v).iq = s.iq := rfl
@[simp] theorem State.setOctet_qf (p : PAddr) (v : Byte) : (s.setOctet p v).qf = s.qf := rfl
@[simp] theorem State.setOctet_skip (p : PAddr) (v : Byte) : (s.setOctet p v).skip = s.skip := rfl
@[simp] theorem State.setOctet_byt (p : PAddr) (v : Byte) : (s.setOctet p v).byt = s.byt := rfl
@[simp] theorem State.setOctet_run (p : PAddr) (v : Byte) : (s.setOctet p v).run = s.run := rfl
@[simp] theorem State.setOctet_hcr (p : PAddr) (v : Byte) : (s.setOctet p v).hcr = s.hcr := rfl
@[simp] theorem State.setOctet_mem (p : PAddr) (v : Byte) : (s.setOctet p v).mem = if s.kindAt p = .ram then Memory.write s.mem p.toNat v else
      Memory.writeAll s.mem (Config.writeEffect s.turns (s.busLog ++ [.memWrite p v])) := rfl
@[simp] theorem State.setOctet_cfg (p : PAddr) (v : Byte) : (s.setOctet p v).cfg = s.cfg := rfl
@[simp] theorem State.setOctet_inputs (p : PAddr) (v : Byte) : (s.setOctet p v).inputs = s.inputs := rfl
@[simp] theorem State.setOctet_busLog (p : PAddr) (v : Byte) : (s.setOctet p v).busLog = if s.kindAt p = .ram then s.busLog else s.busLog ++ [.memWrite p v] := rfl
@[simp] theorem State.setOctet_turns (p : PAddr) (v : Byte) : (s.setOctet p v).turns = s.turns := rfl

/-! ## writeLow -/

@[simp] theorem State.writeLow_regs (va v : Word) : (s.writeLow va v).regs = s.regs := rfl
@[simp] theorem State.writeLow_pc (va v : Word) : (s.writeLow va v).pc = s.pc := rfl
@[simp] theorem State.writeLow_sp (va v : Word) : (s.writeLow va v).sp = s.sp := rfl
@[simp] theorem State.writeLow_ex (va v : Word) : (s.writeLow va v).ex = s.ex := rfl
@[simp] theorem State.writeLow_ia (va v : Word) : (s.writeLow va v).ia = s.ia := rfl
@[simp] theorem State.writeLow_ova (va v : Word) : (s.writeLow va v).ova = s.ova := rfl
@[simp] theorem State.writeLow_ovm (va v : Word) : (s.writeLow va v).ovm = s.ovm := rfl
@[simp] theorem State.writeLow_emu (va v : Word) : (s.writeLow va v).emu = s.emu := rfl
@[simp] theorem State.writeLow_mode (va v : Word) : (s.writeLow va v).mode = s.mode := rfl
@[simp] theorem State.writeLow_iq (va v : Word) : (s.writeLow va v).iq = s.iq := rfl
@[simp] theorem State.writeLow_qf (va v : Word) : (s.writeLow va v).qf = s.qf := rfl
@[simp] theorem State.writeLow_skip (va v : Word) : (s.writeLow va v).skip = s.skip := rfl
@[simp] theorem State.writeLow_byt (va v : Word) : (s.writeLow va v).byt = s.byt := rfl
@[simp] theorem State.writeLow_run (va v : Word) : (s.writeLow va v).run = s.run := rfl
@[simp] theorem State.writeLow_hcr (va v : Word) : (s.writeLow va v).hcr = s.hcr := rfl
@[simp] theorem State.writeLow_cfg (va v : Word) : (s.writeLow va v).cfg = s.cfg := rfl
@[simp] theorem State.writeLow_inputs (va v : Word) : (s.writeLow va v).inputs = s.inputs := rfl
@[simp] theorem State.writeLow_turns (va v : Word) : (s.writeLow va v).turns = s.turns := rfl

/-! ## writeHigh -/

@[simp] theorem State.writeHigh_regs (va v : Word) : (s.writeHigh va v).regs = s.regs := rfl
@[simp] theorem State.writeHigh_pc (va v : Word) : (s.writeHigh va v).pc = s.pc := rfl
@[simp] theorem State.writeHigh_sp (va v : Word) : (s.writeHigh va v).sp = s.sp := rfl
@[simp] theorem State.writeHigh_ex (va v : Word) : (s.writeHigh va v).ex = s.ex := rfl
@[simp] theorem State.writeHigh_ia (va v : Word) : (s.writeHigh va v).ia = s.ia := rfl
@[simp] theorem State.writeHigh_ova (va v : Word) : (s.writeHigh va v).ova = s.ova := rfl
@[simp] theorem State.writeHigh_ovm (va v : Word) : (s.writeHigh va v).ovm = s.ovm := rfl
@[simp] theorem State.writeHigh_emu (va v : Word) : (s.writeHigh va v).emu = s.emu := rfl
@[simp] theorem State.writeHigh_mode (va v : Word) : (s.writeHigh va v).mode = s.mode := rfl
@[simp] theorem State.writeHigh_iq (va v : Word) : (s.writeHigh va v).iq = s.iq := rfl
@[simp] theorem State.writeHigh_qf (va v : Word) : (s.writeHigh va v).qf = s.qf := rfl
@[simp] theorem State.writeHigh_skip (va v : Word) : (s.writeHigh va v).skip = s.skip := rfl
@[simp] theorem State.writeHigh_byt (va v : Word) : (s.writeHigh va v).byt = s.byt := rfl
@[simp] theorem State.writeHigh_run (va v : Word) : (s.writeHigh va v).run = s.run := rfl
@[simp] theorem State.writeHigh_hcr (va v : Word) : (s.writeHigh va v).hcr = s.hcr := rfl
@[simp] theorem State.writeHigh_cfg (va v : Word) : (s.writeHigh va v).cfg = s.cfg := rfl
@[simp] theorem State.writeHigh_inputs (va v : Word) : (s.writeHigh va v).inputs = s.inputs := rfl
@[simp] theorem State.writeHigh_turns (va v : Word) : (s.writeHigh va v).turns = s.turns := rfl

/-! ## writeWord -/

@[simp] theorem State.writeWord_regs (va v : Word) : (s.writeWord va v).regs = s.regs := rfl
@[simp] theorem State.writeWord_pc (va v : Word) : (s.writeWord va v).pc = s.pc := rfl
@[simp] theorem State.writeWord_sp (va v : Word) : (s.writeWord va v).sp = s.sp := rfl
@[simp] theorem State.writeWord_ex (va v : Word) : (s.writeWord va v).ex = s.ex := rfl
@[simp] theorem State.writeWord_ia (va v : Word) : (s.writeWord va v).ia = s.ia := rfl
@[simp] theorem State.writeWord_ova (va v : Word) : (s.writeWord va v).ova = s.ova := rfl
@[simp] theorem State.writeWord_ovm (va v : Word) : (s.writeWord va v).ovm = s.ovm := rfl
@[simp] theorem State.writeWord_emu (va v : Word) : (s.writeWord va v).emu = s.emu := rfl
@[simp] theorem State.writeWord_mode (va v : Word) : (s.writeWord va v).mode = s.mode := rfl
@[simp] theorem State.writeWord_iq (va v : Word) : (s.writeWord va v).iq = s.iq := rfl
@[simp] theorem State.writeWord_qf (va v : Word) : (s.writeWord va v).qf = s.qf := rfl
@[simp] theorem State.writeWord_skip (va v : Word) : (s.writeWord va v).skip = s.skip := rfl
@[simp] theorem State.writeWord_byt (va v : Word) : (s.writeWord va v).byt = s.byt := rfl
@[simp] theorem State.writeWord_run (va v : Word) : (s.writeWord va v).run = s.run := rfl
@[simp] theorem State.writeWord_hcr (va v : Word) : (s.writeWord va v).hcr = s.hcr := rfl
@[simp] theorem State.writeWord_cfg (va v : Word) : (s.writeWord va v).cfg = s.cfg := rfl
@[simp] theorem State.writeWord_inputs (va v : Word) : (s.writeWord va v).inputs = s.inputs := rfl
@[simp] theorem State.writeWord_turns (va v : Word) : (s.writeWord va v).turns = s.turns := rfl

/-! ## Reads that an update leaves alone -/

@[simp] theorem State.page_setReg (r : Reg) (v : Word) (k : Block) : (s.setReg r v).page k = s.page k := rfl
@[simp] theorem State.wordStep_setReg (r : Reg) (v : Word) : (s.setReg r v).wordStep = s.wordStep := rfl
@[simp] theorem State.nativeAddr_setReg (r : Reg) (v : Word) (x : Word) : (s.setReg r v).nativeAddr x = s.nativeAddr x := rfl
@[simp] theorem State.compatAddr_setReg (r : Reg) (v : Word) (x : Word) : (s.setReg r v).compatAddr x = s.compatAddr x := rfl
@[simp] theorem State.lowAddr_setReg (r : Reg) (v : Word) (x : Word) : (s.setReg r v).lowAddr x = s.lowAddr x := rfl
@[simp] theorem State.highAddr_setReg (r : Reg) (v : Word) (x : Word) : (s.setReg r v).highAddr x = s.highAddr x := rfl
@[simp] theorem State.kindAt_setReg (r : Reg) (v : Word) (x : PAddr) : (s.setReg r v).kindAt x = s.kindAt x := rfl
@[simp] theorem State.wordAddrs_setReg (r : Reg) (v : Word) (x : Word) : (s.setReg r v).wordAddrs x = s.wordAddrs x := rfl
@[simp] theorem State.readEvents_setReg (r : Reg) (v : Word) (l : List PAddr) : (s.setReg r v).readEvents l = s.readEvents l := rfl
@[simp] theorem State.octet_setReg (r : Reg) (v : Word) (x : PAddr) : (s.setReg r v).octet x = s.octet x := rfl
@[simp] theorem State.readWord_setReg (r : Reg) (v : Word) (x : Word) : (s.setReg r v).readWord x = s.readWord x := rfl
@[simp] theorem State.reg_setPc (v : Word) (q : Reg) : (s.setPc v).reg q = s.reg q := rfl
@[simp] theorem State.page_setPc (v : Word) (k : Block) : (s.setPc v).page k = s.page k := rfl
@[simp] theorem State.wordStep_setPc (v : Word) : (s.setPc v).wordStep = s.wordStep := rfl
@[simp] theorem State.nativeAddr_setPc (v : Word) (x : Word) : (s.setPc v).nativeAddr x = s.nativeAddr x := rfl
@[simp] theorem State.compatAddr_setPc (v : Word) (x : Word) : (s.setPc v).compatAddr x = s.compatAddr x := rfl
@[simp] theorem State.lowAddr_setPc (v : Word) (x : Word) : (s.setPc v).lowAddr x = s.lowAddr x := rfl
@[simp] theorem State.highAddr_setPc (v : Word) (x : Word) : (s.setPc v).highAddr x = s.highAddr x := rfl
@[simp] theorem State.kindAt_setPc (v : Word) (x : PAddr) : (s.setPc v).kindAt x = s.kindAt x := rfl
@[simp] theorem State.wordAddrs_setPc (v : Word) (x : Word) : (s.setPc v).wordAddrs x = s.wordAddrs x := rfl
@[simp] theorem State.readEvents_setPc (v : Word) (l : List PAddr) : (s.setPc v).readEvents l = s.readEvents l := rfl
@[simp] theorem State.octet_setPc (v : Word) (x : PAddr) : (s.setPc v).octet x = s.octet x := rfl
@[simp] theorem State.readWord_setPc (v : Word) (x : Word) : (s.setPc v).readWord x = s.readWord x := rfl
@[simp] theorem State.reg_setSp (v : Word) (q : Reg) : (s.setSp v).reg q = s.reg q := rfl
@[simp] theorem State.page_setSp (v : Word) (k : Block) : (s.setSp v).page k = s.page k := rfl
@[simp] theorem State.wordStep_setSp (v : Word) : (s.setSp v).wordStep = s.wordStep := rfl
@[simp] theorem State.nativeAddr_setSp (v : Word) (x : Word) : (s.setSp v).nativeAddr x = s.nativeAddr x := rfl
@[simp] theorem State.compatAddr_setSp (v : Word) (x : Word) : (s.setSp v).compatAddr x = s.compatAddr x := rfl
@[simp] theorem State.lowAddr_setSp (v : Word) (x : Word) : (s.setSp v).lowAddr x = s.lowAddr x := rfl
@[simp] theorem State.highAddr_setSp (v : Word) (x : Word) : (s.setSp v).highAddr x = s.highAddr x := rfl
@[simp] theorem State.kindAt_setSp (v : Word) (x : PAddr) : (s.setSp v).kindAt x = s.kindAt x := rfl
@[simp] theorem State.wordAddrs_setSp (v : Word) (x : Word) : (s.setSp v).wordAddrs x = s.wordAddrs x := rfl
@[simp] theorem State.readEvents_setSp (v : Word) (l : List PAddr) : (s.setSp v).readEvents l = s.readEvents l := rfl
@[simp] theorem State.octet_setSp (v : Word) (x : PAddr) : (s.setSp v).octet x = s.octet x := rfl
@[simp] theorem State.readWord_setSp (v : Word) (x : Word) : (s.setSp v).readWord x = s.readWord x := rfl
@[simp] theorem State.reg_setEx (v : Word) (q : Reg) : (s.setEx v).reg q = s.reg q := rfl
@[simp] theorem State.page_setEx (v : Word) (k : Block) : (s.setEx v).page k = s.page k := rfl
@[simp] theorem State.wordStep_setEx (v : Word) : (s.setEx v).wordStep = s.wordStep := rfl
@[simp] theorem State.nativeAddr_setEx (v : Word) (x : Word) : (s.setEx v).nativeAddr x = s.nativeAddr x := rfl
@[simp] theorem State.compatAddr_setEx (v : Word) (x : Word) : (s.setEx v).compatAddr x = s.compatAddr x := rfl
@[simp] theorem State.lowAddr_setEx (v : Word) (x : Word) : (s.setEx v).lowAddr x = s.lowAddr x := rfl
@[simp] theorem State.highAddr_setEx (v : Word) (x : Word) : (s.setEx v).highAddr x = s.highAddr x := rfl
@[simp] theorem State.kindAt_setEx (v : Word) (x : PAddr) : (s.setEx v).kindAt x = s.kindAt x := rfl
@[simp] theorem State.wordAddrs_setEx (v : Word) (x : Word) : (s.setEx v).wordAddrs x = s.wordAddrs x := rfl
@[simp] theorem State.readEvents_setEx (v : Word) (l : List PAddr) : (s.setEx v).readEvents l = s.readEvents l := rfl
@[simp] theorem State.octet_setEx (v : Word) (x : PAddr) : (s.setEx v).octet x = s.octet x := rfl
@[simp] theorem State.readWord_setEx (v : Word) (x : Word) : (s.setEx v).readWord x = s.readWord x := rfl
@[simp] theorem State.reg_setIa (v : Word) (q : Reg) : (s.setIa v).reg q = s.reg q := rfl
@[simp] theorem State.page_setIa (v : Word) (k : Block) : (s.setIa v).page k = s.page k := rfl
@[simp] theorem State.wordStep_setIa (v : Word) : (s.setIa v).wordStep = s.wordStep := rfl
@[simp] theorem State.nativeAddr_setIa (v : Word) (x : Word) : (s.setIa v).nativeAddr x = s.nativeAddr x := rfl
@[simp] theorem State.compatAddr_setIa (v : Word) (x : Word) : (s.setIa v).compatAddr x = s.compatAddr x := rfl
@[simp] theorem State.lowAddr_setIa (v : Word) (x : Word) : (s.setIa v).lowAddr x = s.lowAddr x := rfl
@[simp] theorem State.highAddr_setIa (v : Word) (x : Word) : (s.setIa v).highAddr x = s.highAddr x := rfl
@[simp] theorem State.kindAt_setIa (v : Word) (x : PAddr) : (s.setIa v).kindAt x = s.kindAt x := rfl
@[simp] theorem State.wordAddrs_setIa (v : Word) (x : Word) : (s.setIa v).wordAddrs x = s.wordAddrs x := rfl
@[simp] theorem State.readEvents_setIa (v : Word) (l : List PAddr) : (s.setIa v).readEvents l = s.readEvents l := rfl
@[simp] theorem State.octet_setIa (v : Word) (x : PAddr) : (s.setIa v).octet x = s.octet x := rfl
@[simp] theorem State.readWord_setIa (v : Word) (x : Word) : (s.setIa v).readWord x = s.readWord x := rfl
@[simp] theorem State.reg_setOva (v : Word) (q : Reg) : (s.setOva v).reg q = s.reg q := rfl
@[simp] theorem State.page_setOva (v : Word) (k : Block) : (s.setOva v).page k = s.page k := rfl
@[simp] theorem State.wordStep_setOva (v : Word) : (s.setOva v).wordStep = s.wordStep := rfl
@[simp] theorem State.nativeAddr_setOva (v : Word) (x : Word) : (s.setOva v).nativeAddr x = s.nativeAddr x := rfl
@[simp] theorem State.compatAddr_setOva (v : Word) (x : Word) : (s.setOva v).compatAddr x = s.compatAddr x := rfl
@[simp] theorem State.lowAddr_setOva (v : Word) (x : Word) : (s.setOva v).lowAddr x = s.lowAddr x := rfl
@[simp] theorem State.highAddr_setOva (v : Word) (x : Word) : (s.setOva v).highAddr x = s.highAddr x := rfl
@[simp] theorem State.kindAt_setOva (v : Word) (x : PAddr) : (s.setOva v).kindAt x = s.kindAt x := rfl
@[simp] theorem State.wordAddrs_setOva (v : Word) (x : Word) : (s.setOva v).wordAddrs x = s.wordAddrs x := rfl
@[simp] theorem State.readEvents_setOva (v : Word) (l : List PAddr) : (s.setOva v).readEvents l = s.readEvents l := rfl
@[simp] theorem State.octet_setOva (v : Word) (x : PAddr) : (s.setOva v).octet x = s.octet x := rfl
@[simp] theorem State.readWord_setOva (v : Word) (x : Word) : (s.setOva v).readWord x = s.readWord x := rfl
@[simp] theorem State.reg_setOvm (v : Word) (q : Reg) : (s.setOvm v).reg q = s.reg q := rfl
@[simp] theorem State.page_setOvm (v : Word) (k : Block) : (s.setOvm v).page k = s.page k := rfl
@[simp] theorem State.wordStep_setOvm (v : Word) : (s.setOvm v).wordStep = s.wordStep := rfl
@[simp] theorem State.nativeAddr_setOvm (v : Word) (x : Word) : (s.setOvm v).nativeAddr x = s.nativeAddr x := rfl
@[simp] theorem State.compatAddr_setOvm (v : Word) (x : Word) : (s.setOvm v).compatAddr x = s.compatAddr x := rfl
@[simp] theorem State.lowAddr_setOvm (v : Word) (x : Word) : (s.setOvm v).lowAddr x = s.lowAddr x := rfl
@[simp] theorem State.highAddr_setOvm (v : Word) (x : Word) : (s.setOvm v).highAddr x = s.highAddr x := rfl
@[simp] theorem State.kindAt_setOvm (v : Word) (x : PAddr) : (s.setOvm v).kindAt x = s.kindAt x := rfl
@[simp] theorem State.wordAddrs_setOvm (v : Word) (x : Word) : (s.setOvm v).wordAddrs x = s.wordAddrs x := rfl
@[simp] theorem State.readEvents_setOvm (v : Word) (l : List PAddr) : (s.setOvm v).readEvents l = s.readEvents l := rfl
@[simp] theorem State.octet_setOvm (v : Word) (x : PAddr) : (s.setOvm v).octet x = s.octet x := rfl
@[simp] theorem State.readWord_setOvm (v : Word) (x : Word) : (s.setOvm v).readWord x = s.readWord x := rfl
@[simp] theorem State.reg_setPage (b : Block) (p : Page) (q : Reg) : (s.setPage b p).reg q = s.reg q := rfl
@[simp] theorem State.wordStep_setPage (b : Block) (p : Page) : (s.setPage b p).wordStep = s.wordStep := rfl
@[simp] theorem State.kindAt_setPage (b : Block) (p : Page) (x : PAddr) : (s.setPage b p).kindAt x = s.kindAt x := rfl
@[simp] theorem State.readEvents_setPage (b : Block) (p : Page) (l : List PAddr) : (s.setPage b p).readEvents l = s.readEvents l := rfl
@[simp] theorem State.octet_setPage (b : Block) (p : Page) (x : PAddr) : (s.setPage b p).octet x = s.octet x := rfl
@[simp] theorem State.reg_setMode (m : Mode) (q : Reg) : (s.setMode m).reg q = s.reg q := rfl
@[simp] theorem State.page_setMode (m : Mode) (k : Block) : (s.setMode m).page k = s.page k := rfl
@[simp] theorem State.nativeAddr_setMode (m : Mode) (x : Word) : (s.setMode m).nativeAddr x = s.nativeAddr x := rfl
@[simp] theorem State.compatAddr_setMode (m : Mode) (x : Word) : (s.setMode m).compatAddr x = s.compatAddr x := rfl
@[simp] theorem State.kindAt_setMode (m : Mode) (x : PAddr) : (s.setMode m).kindAt x = s.kindAt x := rfl
@[simp] theorem State.readEvents_setMode (m : Mode) (l : List PAddr) : (s.setMode m).readEvents l = s.readEvents l := rfl
@[simp] theorem State.octet_setMode (m : Mode) (x : PAddr) : (s.setMode m).octet x = s.octet x := rfl
@[simp] theorem State.reg_setIq (ms : List Word) (q : Reg) : (s.setIq ms).reg q = s.reg q := rfl
@[simp] theorem State.page_setIq (ms : List Word) (k : Block) : (s.setIq ms).page k = s.page k := rfl
@[simp] theorem State.wordStep_setIq (ms : List Word) : (s.setIq ms).wordStep = s.wordStep := rfl
@[simp] theorem State.nativeAddr_setIq (ms : List Word) (x : Word) : (s.setIq ms).nativeAddr x = s.nativeAddr x := rfl
@[simp] theorem State.compatAddr_setIq (ms : List Word) (x : Word) : (s.setIq ms).compatAddr x = s.compatAddr x := rfl
@[simp] theorem State.lowAddr_setIq (ms : List Word) (x : Word) : (s.setIq ms).lowAddr x = s.lowAddr x := rfl
@[simp] theorem State.highAddr_setIq (ms : List Word) (x : Word) : (s.setIq ms).highAddr x = s.highAddr x := rfl
@[simp] theorem State.kindAt_setIq (ms : List Word) (x : PAddr) : (s.setIq ms).kindAt x = s.kindAt x := rfl
@[simp] theorem State.wordAddrs_setIq (ms : List Word) (x : Word) : (s.setIq ms).wordAddrs x = s.wordAddrs x := rfl
@[simp] theorem State.readEvents_setIq (ms : List Word) (l : List PAddr) : (s.setIq ms).readEvents l = s.readEvents l := rfl
@[simp] theorem State.octet_setIq (ms : List Word) (x : PAddr) : (s.setIq ms).octet x = s.octet x := rfl
@[simp] theorem State.readWord_setIq (ms : List Word) (x : Word) : (s.setIq ms).readWord x = s.readWord x := rfl
@[simp] theorem State.reg_setQf (b : Bool) (q : Reg) : (s.setQf b).reg q = s.reg q := rfl
@[simp] theorem State.page_setQf (b : Bool) (k : Block) : (s.setQf b).page k = s.page k := rfl
@[simp] theorem State.wordStep_setQf (b : Bool) : (s.setQf b).wordStep = s.wordStep := rfl
@[simp] theorem State.nativeAddr_setQf (b : Bool) (x : Word) : (s.setQf b).nativeAddr x = s.nativeAddr x := rfl
@[simp] theorem State.compatAddr_setQf (b : Bool) (x : Word) : (s.setQf b).compatAddr x = s.compatAddr x := rfl
@[simp] theorem State.lowAddr_setQf (b : Bool) (x : Word) : (s.setQf b).lowAddr x = s.lowAddr x := rfl
@[simp] theorem State.highAddr_setQf (b : Bool) (x : Word) : (s.setQf b).highAddr x = s.highAddr x := rfl
@[simp] theorem State.kindAt_setQf (b : Bool) (x : PAddr) : (s.setQf b).kindAt x = s.kindAt x := rfl
@[simp] theorem State.wordAddrs_setQf (b : Bool) (x : Word) : (s.setQf b).wordAddrs x = s.wordAddrs x := rfl
@[simp] theorem State.readEvents_setQf (b : Bool) (l : List PAddr) : (s.setQf b).readEvents l = s.readEvents l := rfl
@[simp] theorem State.octet_setQf (b : Bool) (x : PAddr) : (s.setQf b).octet x = s.octet x := rfl
@[simp] theorem State.readWord_setQf (b : Bool) (x : Word) : (s.setQf b).readWord x = s.readWord x := rfl
@[simp] theorem State.reg_setSkip (b : Bool) (q : Reg) : (s.setSkip b).reg q = s.reg q := rfl
@[simp] theorem State.page_setSkip (b : Bool) (k : Block) : (s.setSkip b).page k = s.page k := rfl
@[simp] theorem State.wordStep_setSkip (b : Bool) : (s.setSkip b).wordStep = s.wordStep := rfl
@[simp] theorem State.nativeAddr_setSkip (b : Bool) (x : Word) : (s.setSkip b).nativeAddr x = s.nativeAddr x := rfl
@[simp] theorem State.compatAddr_setSkip (b : Bool) (x : Word) : (s.setSkip b).compatAddr x = s.compatAddr x := rfl
@[simp] theorem State.lowAddr_setSkip (b : Bool) (x : Word) : (s.setSkip b).lowAddr x = s.lowAddr x := rfl
@[simp] theorem State.highAddr_setSkip (b : Bool) (x : Word) : (s.setSkip b).highAddr x = s.highAddr x := rfl
@[simp] theorem State.kindAt_setSkip (b : Bool) (x : PAddr) : (s.setSkip b).kindAt x = s.kindAt x := rfl
@[simp] theorem State.wordAddrs_setSkip (b : Bool) (x : Word) : (s.setSkip b).wordAddrs x = s.wordAddrs x := rfl
@[simp] theorem State.readEvents_setSkip (b : Bool) (l : List PAddr) : (s.setSkip b).readEvents l = s.readEvents l := rfl
@[simp] theorem State.octet_setSkip (b : Bool) (x : PAddr) : (s.setSkip b).octet x = s.octet x := rfl
@[simp] theorem State.readWord_setSkip (b : Bool) (x : Word) : (s.setSkip b).readWord x = s.readWord x := rfl
@[simp] theorem State.reg_setByt (m : ByteMask) (q : Reg) : (s.setByt m).reg q = s.reg q := rfl
@[simp] theorem State.page_setByt (m : ByteMask) (k : Block) : (s.setByt m).page k = s.page k := rfl
@[simp] theorem State.wordStep_setByt (m : ByteMask) : (s.setByt m).wordStep = s.wordStep := rfl
@[simp] theorem State.nativeAddr_setByt (m : ByteMask) (x : Word) : (s.setByt m).nativeAddr x = s.nativeAddr x := rfl
@[simp] theorem State.compatAddr_setByt (m : ByteMask) (x : Word) : (s.setByt m).compatAddr x = s.compatAddr x := rfl
@[simp] theorem State.lowAddr_setByt (m : ByteMask) (x : Word) : (s.setByt m).lowAddr x = s.lowAddr x := rfl
@[simp] theorem State.highAddr_setByt (m : ByteMask) (x : Word) : (s.setByt m).highAddr x = s.highAddr x := rfl
@[simp] theorem State.kindAt_setByt (m : ByteMask) (x : PAddr) : (s.setByt m).kindAt x = s.kindAt x := rfl
@[simp] theorem State.wordAddrs_setByt (m : ByteMask) (x : Word) : (s.setByt m).wordAddrs x = s.wordAddrs x := rfl
@[simp] theorem State.readEvents_setByt (m : ByteMask) (l : List PAddr) : (s.setByt m).readEvents l = s.readEvents l := rfl
@[simp] theorem State.octet_setByt (m : ByteMask) (x : PAddr) : (s.setByt m).octet x = s.octet x := rfl
@[simp] theorem State.readWord_setByt (m : ByteMask) (x : Word) : (s.setByt m).readWord x = s.readWord x := rfl
@[simp] theorem State.reg_setRun (r : RunState) (q : Reg) : (s.setRun r).reg q = s.reg q := rfl
@[simp] theorem State.page_setRun (r : RunState) (k : Block) : (s.setRun r).page k = s.page k := rfl
@[simp] theorem State.wordStep_setRun (r : RunState) : (s.setRun r).wordStep = s.wordStep := rfl
@[simp] theorem State.nativeAddr_setRun (r : RunState) (x : Word) : (s.setRun r).nativeAddr x = s.nativeAddr x := rfl
@[simp] theorem State.compatAddr_setRun (r : RunState) (x : Word) : (s.setRun r).compatAddr x = s.compatAddr x := rfl
@[simp] theorem State.lowAddr_setRun (r : RunState) (x : Word) : (s.setRun r).lowAddr x = s.lowAddr x := rfl
@[simp] theorem State.highAddr_setRun (r : RunState) (x : Word) : (s.setRun r).highAddr x = s.highAddr x := rfl
@[simp] theorem State.kindAt_setRun (r : RunState) (x : PAddr) : (s.setRun r).kindAt x = s.kindAt x := rfl
@[simp] theorem State.wordAddrs_setRun (r : RunState) (x : Word) : (s.setRun r).wordAddrs x = s.wordAddrs x := rfl
@[simp] theorem State.readEvents_setRun (r : RunState) (l : List PAddr) : (s.setRun r).readEvents l = s.readEvents l := rfl
@[simp] theorem State.octet_setRun (r : RunState) (x : PAddr) : (s.setRun r).octet x = s.octet x := rfl
@[simp] theorem State.readWord_setRun (r : RunState) (x : Word) : (s.setRun r).readWord x = s.readWord x := rfl
@[simp] theorem State.reg_setHcr (v : Word) (q : Reg) : (s.setHcr v).reg q = s.reg q := rfl
@[simp] theorem State.page_setHcr (v : Word) (k : Block) : (s.setHcr v).page k = s.page k := rfl
@[simp] theorem State.wordStep_setHcr (v : Word) : (s.setHcr v).wordStep = s.wordStep := rfl
@[simp] theorem State.nativeAddr_setHcr (v : Word) (x : Word) : (s.setHcr v).nativeAddr x = s.nativeAddr x := rfl
@[simp] theorem State.compatAddr_setHcr (v : Word) (x : Word) : (s.setHcr v).compatAddr x = s.compatAddr x := rfl
@[simp] theorem State.lowAddr_setHcr (v : Word) (x : Word) : (s.setHcr v).lowAddr x = s.lowAddr x := rfl
@[simp] theorem State.highAddr_setHcr (v : Word) (x : Word) : (s.setHcr v).highAddr x = s.highAddr x := rfl
@[simp] theorem State.kindAt_setHcr (v : Word) (x : PAddr) : (s.setHcr v).kindAt x = s.kindAt x := rfl
@[simp] theorem State.wordAddrs_setHcr (v : Word) (x : Word) : (s.setHcr v).wordAddrs x = s.wordAddrs x := rfl
@[simp] theorem State.readEvents_setHcr (v : Word) (l : List PAddr) : (s.setHcr v).readEvents l = s.readEvents l := rfl
@[simp] theorem State.octet_setHcr (v : Word) (x : PAddr) : (s.setHcr v).octet x = s.octet x := rfl
@[simp] theorem State.readWord_setHcr (v : Word) (x : Word) : (s.setHcr v).readWord x = s.readWord x := rfl
@[simp] theorem State.reg_beginTurn (q : Reg) : s.beginTurn.reg q = s.reg q := rfl
@[simp] theorem State.page_beginTurn (k : Block) : s.beginTurn.page k = s.page k := rfl
@[simp] theorem State.wordStep_beginTurn : s.beginTurn.wordStep = s.wordStep := rfl
@[simp] theorem State.nativeAddr_beginTurn (x : Word) : s.beginTurn.nativeAddr x = s.nativeAddr x := rfl
@[simp] theorem State.compatAddr_beginTurn (x : Word) : s.beginTurn.compatAddr x = s.compatAddr x := rfl
@[simp] theorem State.lowAddr_beginTurn (x : Word) : s.beginTurn.lowAddr x = s.lowAddr x := rfl
@[simp] theorem State.highAddr_beginTurn (x : Word) : s.beginTurn.highAddr x = s.highAddr x := rfl
@[simp] theorem State.kindAt_beginTurn (x : PAddr) : s.beginTurn.kindAt x = s.kindAt x := rfl
@[simp] theorem State.wordAddrs_beginTurn (x : Word) : s.beginTurn.wordAddrs x = s.wordAddrs x := rfl
@[simp] theorem State.readEvents_beginTurn (l : List PAddr) : s.beginTurn.readEvents l = s.readEvents l := rfl
@[simp] theorem State.reg_logBus (e : BusEvent) (q : Reg) : (s.logBus e).reg q = s.reg q := rfl
@[simp] theorem State.page_logBus (e : BusEvent) (k : Block) : (s.logBus e).page k = s.page k := rfl
@[simp] theorem State.wordStep_logBus (e : BusEvent) : (s.logBus e).wordStep = s.wordStep := rfl
@[simp] theorem State.nativeAddr_logBus (e : BusEvent) (x : Word) : (s.logBus e).nativeAddr x = s.nativeAddr x := rfl
@[simp] theorem State.compatAddr_logBus (e : BusEvent) (x : Word) : (s.logBus e).compatAddr x = s.compatAddr x := rfl
@[simp] theorem State.lowAddr_logBus (e : BusEvent) (x : Word) : (s.logBus e).lowAddr x = s.lowAddr x := rfl
@[simp] theorem State.highAddr_logBus (e : BusEvent) (x : Word) : (s.logBus e).highAddr x = s.highAddr x := rfl
@[simp] theorem State.kindAt_logBus (e : BusEvent) (x : PAddr) : (s.logBus e).kindAt x = s.kindAt x := rfl
@[simp] theorem State.wordAddrs_logBus (e : BusEvent) (x : Word) : (s.logBus e).wordAddrs x = s.wordAddrs x := rfl
@[simp] theorem State.readEvents_logBus (e : BusEvent) (l : List PAddr) : (s.logBus e).readEvents l = s.readEvents l := rfl
@[simp] theorem State.reg_storeOctets (l : List (PAddr × Byte)) (q : Reg) : (s.storeOctets l).reg q = s.reg q := rfl
@[simp] theorem State.page_storeOctets (l : List (PAddr × Byte)) (k : Block) : (s.storeOctets l).page k = s.page k := rfl
@[simp] theorem State.wordStep_storeOctets (l : List (PAddr × Byte)) : (s.storeOctets l).wordStep = s.wordStep := rfl
@[simp] theorem State.nativeAddr_storeOctets (l : List (PAddr × Byte)) (x : Word) : (s.storeOctets l).nativeAddr x = s.nativeAddr x := rfl
@[simp] theorem State.compatAddr_storeOctets (l : List (PAddr × Byte)) (x : Word) : (s.storeOctets l).compatAddr x = s.compatAddr x := rfl
@[simp] theorem State.lowAddr_storeOctets (l : List (PAddr × Byte)) (x : Word) : (s.storeOctets l).lowAddr x = s.lowAddr x := rfl
@[simp] theorem State.highAddr_storeOctets (l : List (PAddr × Byte)) (x : Word) : (s.storeOctets l).highAddr x = s.highAddr x := rfl
@[simp] theorem State.kindAt_storeOctets (l : List (PAddr × Byte)) (x : PAddr) : (s.storeOctets l).kindAt x = s.kindAt x := rfl
@[simp] theorem State.wordAddrs_storeOctets (l : List (PAddr × Byte)) (x : Word) : (s.storeOctets l).wordAddrs x = s.wordAddrs x := rfl
@[simp] theorem State.readEvents_storeOctets (l : List (PAddr × Byte)) (m : List PAddr) : (s.storeOctets l).readEvents m = s.readEvents m := rfl
@[simp] theorem State.reg_noteRead (l : List PAddr) (q : Reg) : (s.noteRead l).reg q = s.reg q := rfl
@[simp] theorem State.page_noteRead (l : List PAddr) (k : Block) : (s.noteRead l).page k = s.page k := rfl
@[simp] theorem State.wordStep_noteRead (l : List PAddr) : (s.noteRead l).wordStep = s.wordStep := rfl
@[simp] theorem State.nativeAddr_noteRead (l : List PAddr) (x : Word) : (s.noteRead l).nativeAddr x = s.nativeAddr x := rfl
@[simp] theorem State.compatAddr_noteRead (l : List PAddr) (x : Word) : (s.noteRead l).compatAddr x = s.compatAddr x := rfl
@[simp] theorem State.lowAddr_noteRead (l : List PAddr) (x : Word) : (s.noteRead l).lowAddr x = s.lowAddr x := rfl
@[simp] theorem State.highAddr_noteRead (l : List PAddr) (x : Word) : (s.noteRead l).highAddr x = s.highAddr x := rfl
@[simp] theorem State.kindAt_noteRead (l : List PAddr) (x : PAddr) : (s.noteRead l).kindAt x = s.kindAt x := rfl
@[simp] theorem State.wordAddrs_noteRead (l : List PAddr) (x : Word) : (s.noteRead l).wordAddrs x = s.wordAddrs x := rfl
@[simp] theorem State.readEvents_noteRead (l : List PAddr) (m : List PAddr) : (s.noteRead l).readEvents m = s.readEvents m := rfl
@[simp] theorem State.reg_afterRead (va : Word) (q : Reg) : (s.afterRead va).reg q = s.reg q := rfl
@[simp] theorem State.page_afterRead (va : Word) (k : Block) : (s.afterRead va).page k = s.page k := rfl
@[simp] theorem State.wordStep_afterRead (va : Word) : (s.afterRead va).wordStep = s.wordStep := rfl
@[simp] theorem State.nativeAddr_afterRead (va : Word) (x : Word) : (s.afterRead va).nativeAddr x = s.nativeAddr x := rfl
@[simp] theorem State.compatAddr_afterRead (va : Word) (x : Word) : (s.afterRead va).compatAddr x = s.compatAddr x := rfl
@[simp] theorem State.lowAddr_afterRead (va : Word) (x : Word) : (s.afterRead va).lowAddr x = s.lowAddr x := rfl
@[simp] theorem State.highAddr_afterRead (va : Word) (x : Word) : (s.afterRead va).highAddr x = s.highAddr x := rfl
@[simp] theorem State.kindAt_afterRead (va : Word) (x : PAddr) : (s.afterRead va).kindAt x = s.kindAt x := rfl
@[simp] theorem State.wordAddrs_afterRead (va : Word) (x : Word) : (s.afterRead va).wordAddrs x = s.wordAddrs x := rfl
@[simp] theorem State.readEvents_afterRead (va : Word) (l : List PAddr) : (s.afterRead va).readEvents l = s.readEvents l := rfl
@[simp] theorem State.reg_setOctet (p : PAddr) (v : Byte) (q : Reg) : (s.setOctet p v).reg q = s.reg q := rfl
@[simp] theorem State.page_setOctet (p : PAddr) (v : Byte) (k : Block) : (s.setOctet p v).page k = s.page k := rfl
@[simp] theorem State.wordStep_setOctet (p : PAddr) (v : Byte) : (s.setOctet p v).wordStep = s.wordStep := rfl
@[simp] theorem State.nativeAddr_setOctet (p : PAddr) (v : Byte) (x : Word) : (s.setOctet p v).nativeAddr x = s.nativeAddr x := rfl
@[simp] theorem State.compatAddr_setOctet (p : PAddr) (v : Byte) (x : Word) : (s.setOctet p v).compatAddr x = s.compatAddr x := rfl
@[simp] theorem State.lowAddr_setOctet (p : PAddr) (v : Byte) (x : Word) : (s.setOctet p v).lowAddr x = s.lowAddr x := rfl
@[simp] theorem State.highAddr_setOctet (p : PAddr) (v : Byte) (x : Word) : (s.setOctet p v).highAddr x = s.highAddr x := rfl
@[simp] theorem State.kindAt_setOctet (p : PAddr) (v : Byte) (x : PAddr) : (s.setOctet p v).kindAt x = s.kindAt x := rfl
@[simp] theorem State.wordAddrs_setOctet (p : PAddr) (v : Byte) (x : Word) : (s.setOctet p v).wordAddrs x = s.wordAddrs x := rfl
@[simp] theorem State.readEvents_setOctet (p : PAddr) (v : Byte) (l : List PAddr) : (s.setOctet p v).readEvents l = s.readEvents l := rfl
@[simp] theorem State.reg_writeLow (va v : Word) (q : Reg) : (s.writeLow va v).reg q = s.reg q := rfl
@[simp] theorem State.page_writeLow (va v : Word) (k : Block) : (s.writeLow va v).page k = s.page k := rfl
@[simp] theorem State.wordStep_writeLow (va v : Word) : (s.writeLow va v).wordStep = s.wordStep := rfl
@[simp] theorem State.nativeAddr_writeLow (va v : Word) (x : Word) : (s.writeLow va v).nativeAddr x = s.nativeAddr x := rfl
@[simp] theorem State.compatAddr_writeLow (va v : Word) (x : Word) : (s.writeLow va v).compatAddr x = s.compatAddr x := rfl
@[simp] theorem State.lowAddr_writeLow (va v : Word) (x : Word) : (s.writeLow va v).lowAddr x = s.lowAddr x := rfl
@[simp] theorem State.highAddr_writeLow (va v : Word) (x : Word) : (s.writeLow va v).highAddr x = s.highAddr x := rfl
@[simp] theorem State.kindAt_writeLow (va v : Word) (x : PAddr) : (s.writeLow va v).kindAt x = s.kindAt x := rfl
@[simp] theorem State.wordAddrs_writeLow (va v : Word) (x : Word) : (s.writeLow va v).wordAddrs x = s.wordAddrs x := rfl
@[simp] theorem State.readEvents_writeLow (va v : Word) (l : List PAddr) : (s.writeLow va v).readEvents l = s.readEvents l := rfl
@[simp] theorem State.reg_writeHigh (va v : Word) (q : Reg) : (s.writeHigh va v).reg q = s.reg q := rfl
@[simp] theorem State.page_writeHigh (va v : Word) (k : Block) : (s.writeHigh va v).page k = s.page k := rfl
@[simp] theorem State.wordStep_writeHigh (va v : Word) : (s.writeHigh va v).wordStep = s.wordStep := rfl
@[simp] theorem State.nativeAddr_writeHigh (va v : Word) (x : Word) : (s.writeHigh va v).nativeAddr x = s.nativeAddr x := rfl
@[simp] theorem State.compatAddr_writeHigh (va v : Word) (x : Word) : (s.writeHigh va v).compatAddr x = s.compatAddr x := rfl
@[simp] theorem State.lowAddr_writeHigh (va v : Word) (x : Word) : (s.writeHigh va v).lowAddr x = s.lowAddr x := rfl
@[simp] theorem State.highAddr_writeHigh (va v : Word) (x : Word) : (s.writeHigh va v).highAddr x = s.highAddr x := rfl
@[simp] theorem State.kindAt_writeHigh (va v : Word) (x : PAddr) : (s.writeHigh va v).kindAt x = s.kindAt x := rfl
@[simp] theorem State.wordAddrs_writeHigh (va v : Word) (x : Word) : (s.writeHigh va v).wordAddrs x = s.wordAddrs x := rfl
@[simp] theorem State.readEvents_writeHigh (va v : Word) (l : List PAddr) : (s.writeHigh va v).readEvents l = s.readEvents l := rfl
@[simp] theorem State.reg_writeWord (va v : Word) (q : Reg) : (s.writeWord va v).reg q = s.reg q := rfl
@[simp] theorem State.page_writeWord (va v : Word) (k : Block) : (s.writeWord va v).page k = s.page k := rfl
@[simp] theorem State.wordStep_writeWord (va v : Word) : (s.writeWord va v).wordStep = s.wordStep := rfl
@[simp] theorem State.nativeAddr_writeWord (va v : Word) (x : Word) : (s.writeWord va v).nativeAddr x = s.nativeAddr x := rfl
@[simp] theorem State.compatAddr_writeWord (va v : Word) (x : Word) : (s.writeWord va v).compatAddr x = s.compatAddr x := rfl
@[simp] theorem State.lowAddr_writeWord (va v : Word) (x : Word) : (s.writeWord va v).lowAddr x = s.lowAddr x := rfl
@[simp] theorem State.highAddr_writeWord (va v : Word) (x : Word) : (s.writeWord va v).highAddr x = s.highAddr x := rfl
@[simp] theorem State.kindAt_writeWord (va v : Word) (x : PAddr) : (s.writeWord va v).kindAt x = s.kindAt x := rfl
@[simp] theorem State.wordAddrs_writeWord (va v : Word) (x : Word) : (s.writeWord va v).wordAddrs x = s.wordAddrs x := rfl
@[simp] theorem State.readEvents_writeWord (va v : Word) (l : List PAddr) : (s.writeWord va v).readEvents l = s.readEvents l := rfl

/-! ## Reads that an update changes -/

theorem regIndex_injective {q r : Reg} (h : regIndex q = regIndex r) : q = r := by
  cases q <;> cases r <;> first | rfl | exact absurd h (by decide)

theorem State.reg_setReg (q r : Reg) (v : Word) : (s.setReg r v).reg q = if q = r then v else s.reg q := by
  by_cases h : q = r
  · subst h
    simp [State.reg, State.setReg]
  · have hi : (regIndex r).val ≠ (regIndex q).val := fun e => h (regIndex_injective (Fin.ext e.symm))
    simp [State.reg, State.setReg, h, hi]

@[simp] theorem State.reg_setReg_self (r : Reg) (v : Word) : (s.setReg r v).reg r = v := by
  simp [State.reg_setReg]

theorem State.reg_setReg_ne {q r : Reg} (h : q ≠ r) (v : Word) : (s.setReg r v).reg q = s.reg q := by
  simp [State.reg_setReg, h]

theorem State.page_setPage (k b : Block) (p : Page) : (s.setPage b p).page k = if k = b then p else s.page k := by
  by_cases h : k = b
  · subst h
    simp [State.page, State.setPage]
  · have hi : b.toNat ≠ k.toNat := fun e => h (BitVec.eq_of_toNat_eq e.symm)
    simp [State.page, State.setPage, h, hi]

@[simp] theorem State.page_setPage_self (b : Block) (p : Page) : (s.setPage b p).page b = p := by
  simp [State.page_setPage]

theorem State.page_setPage_ne {k b : Block} (h : k ≠ b) (p : Page) : (s.setPage b p).page k = s.page k := by
  simp [State.page_setPage, h]

end Sys2Proof.Machine
end

