-- ==== Sys2Proof/Laws/Ops.lean ====
section
/-! SUPPORT. One lemma for each shared operation of Machine/Ops.lean that says what it can do, and the address facts
they rest on. -/

namespace Sys2Proof.Machine

/-! ## Octets of a word -/

@[simp] theorem lowOctet_joinOctets (lo hi : Byte) : lowOctet (joinOctets lo hi) = lo :=
  BitVec.extractLsb'_append_eq_right

@[simp] theorem highOctet_joinOctets (lo hi : Byte) : highOctet (joinOctets lo hi) = hi :=
  BitVec.extractLsb'_append_eq_left

@[simp] theorem joinOctets_low_high (w : Word) : joinOctets (lowOctet w) (highOctet w) = w := by
  simp only [joinOctets, lowOctet, highOctet]
  rw [BitVec.extractLsb'_append_extractLsb'_eq_extractLsb' (by rfl)]
  exact BitVec.extractLsb'_eq_self

/-! ## Addresses -/

theorem State.nativeAddr_toNat (s : State) (va : Word) :
    (s.nativeAddr va).toNat = (s.page (blockOf va)).toNat * 4096 + va.toNat % 4096 := by
  simp only [State.nativeAddr, BitVec.toNat_append, offsetOf, BitVec.extractLsb'_toNat, Nat.shiftRight_zero]
  rw [← Nat.shiftLeft_add_eq_or_of_lt (Nat.mod_lt _ (by decide)), Nat.shiftLeft_eq]

theorem State.compatAddr_toNat (s : State) (va : Word) :
    (s.compatAddr va).toNat = (s.page (blockOf va)).toNat / 2 * 8192 + va.toNat % 4096 * 2 := by
  have hp := (s.page (blockOf va)).isLt
  simp only [State.compatAddr, BitVec.toNat_append, offsetOf, BitVec.extractLsb'_toNat, Nat.shiftRight_zero,
    BitVec.toNat_ofNat]
  rw [← Nat.shiftLeft_add_eq_or_of_lt (by omega),
    ← Nat.shiftLeft_add_eq_or_of_lt (by omega), Nat.shiftLeft_eq, Nat.shiftLeft_eq, Nat.shiftRight_eq_div_pow]
  omega

theorem State.compatAddr_succ_toNat (s : State) (va : Word) :
    (s.compatAddr va + 1).toNat = (s.compatAddr va).toNat + 1 := by
  have hp := (s.page (blockOf va)).isLt
  have h := s.compatAddr_toNat va
  rw [BitVec.toNat_add_of_lt]
  · rfl
  · rw [h]
    simp
    omega

/-- The two octets of a word never share a physical address, in either mode. -/
theorem State.lowAddr_ne_highAddr (s : State) (va : Word) : s.lowAddr va ≠ s.highAddr va := by
  intro h
  have h := congrArg BitVec.toNat h
  simp only [State.lowAddr, State.highAddr] at h
  cases hm : s.mode with
  | native =>
    simp only [hm, State.nativeAddr_toNat] at h
    have hv : (va + 1).toNat = (va.toNat + 1) % 65536 := by simp
    rw [hv] at h
    omega
  | compatible =>
    simp only [hm, State.compatAddr_succ_toNat] at h
    omega

/-! ## Memory -/

/-- What a write to RAM can do to an octet: it is the octet written there, every other reads as before (R52). -/
theorem State.octet_setOctet {s : State} {p : PAddr} (h : s.kindAt p = .ram) (q : PAddr) (v : Byte) :
    (s.setOctet p v).octet q = if q = p then v else s.octet q := by
  by_cases hq : q = p
  · subst hq
    simp [State.octet, h, Memory.read_write]
  · have hn : ¬ q.toNat = p.toNat := fun e => hq (BitVec.eq_of_toNat_eq e)
    simp [State.octet, h, hq, Memory.read_write, hn]

/-- The octets the platform sets by itself read as before everywhere else. -/
theorem State.octet_storeOctets_of_not_mem (s : State) (l : List (PAddr × Byte)) (q : PAddr)
    (h : q ∉ l.map Prod.fst) : (s.storeOctets l).octet q = s.octet q := by
  simp only [State.octet, State.kindAt_storeOctets, State.storeOctets_mem, State.storeOctets_turns,
    State.storeOctets_busLog, Memory.read_writeAll_of_not_mem _ _ _ h]

/-- Reads of octets that lie in no device have no effect (R52). -/
theorem State.noteRead_of_not_device {s : State} {l : List PAddr} (h : ∀ q ∈ l, s.kindAt q ≠ .device) :
    s.noteRead l = s := by
  have hl : s.readEvents l = [] := by
    simp only [State.readEvents, List.map_eq_nil_iff, List.filter_eq_nil_iff]
    exact fun q hq => by simpa using h q hq
  simp [State.noteRead, hl]

/-- RAM and ROM read as they hold, whatever was read before (R52). -/
theorem State.octet_noteRead_of_not_device {s : State} {q : PAddr} (h : s.kindAt q ≠ .device) (l : List PAddr) :
    (s.noteRead l).octet q = s.octet q := by
  simp only [State.octet, State.kindAt_noteRead, State.noteRead_mem]
  cases hk : s.kindAt q with
  | device => exact absurd hk h
  | ram => rfl
  | rom => rfl

/-- A word whose high octet is in RAM or ROM is its two octets as they read (R45). -/
theorem State.readWord_eq {s : State} {va : Word} (h : s.kindAt (s.highAddr va) ≠ .device) :
    s.readWord va = joinOctets (s.octet (s.lowAddr va)) (s.octet (s.highAddr va)) := by
  simp only [State.readWord, State.octet_noteRead_of_not_device h]

/-- RAM and ROM read alike in states with the same memory and the same memory map (R52). -/
theorem State.octet_congr {s t : State} {q : PAddr} (h : s.kindAt q ≠ .device) (hm : t.mem = s.mem)
    (hc : t.cfg = s.cfg) : t.octet q = s.octet q := by
  have hk : t.kindAt q = s.kindAt q := by simp [State.kindAt, hc]
  simp only [State.octet, hk, hm]
  cases hq : s.kindAt q with
  | device => exact absurd hq h
  | ram => rfl
  | rom => rfl

/-- A word write does not see SP or QF. -/
theorem State.writeWord_setSp (s : State) (p va v : Word) :
    (s.setSp p).writeWord va v = (s.writeWord va v).setSp p := rfl

theorem State.writeWord_setQf (s : State) (b : Bool) (va v : Word) :
    (s.setQf b).writeWord va v = (s.writeWord va v).setQf b := rfl

/-- What a word write to RAM can do to an octet (R46, R52). -/
theorem State.octet_writeWord {s : State} {va : Word} (hl : s.kindAt (s.lowAddr va) = .ram)
    (hh : s.kindAt (s.highAddr va) = .ram) (v : Word) (q : PAddr) :
    (s.writeWord va v).octet q =
      if q = s.lowAddr va then lowOctet v else if q = s.highAddr va then highOctet v else s.octet q := by
  have hh' : (s.writeLow va v).kindAt ((s.writeLow va v).highAddr va) = .ram := by simpa using hh
  have hl' := s.lowAddr_ne_highAddr va
  rw [State.writeWord, State.writeHigh, State.octet_setOctet hh', State.writeLow, State.octet_setOctet hl,
    State.highAddr_setOctet]
  by_cases h : q = s.highAddr va
  · subst h
    simp [hl'.symm]
  · simp [h]

/-- A write to RAM makes no transaction. -/
theorem State.busLog_writeWord {s : State} {va : Word} (hl : s.kindAt (s.lowAddr va) = .ram)
    (hh : s.kindAt (s.highAddr va) = .ram) (v : Word) : (s.writeWord va v).busLog = s.busLog := by
  have hh' : (s.writeLow va v).kindAt ((s.writeLow va v).highAddr va) = .ram := by simpa using hh
  rw [State.writeWord, State.writeHigh, State.setOctet_busLog, if_pos hh', State.writeLow, State.setOctet_busLog,
    if_pos hl]

/-- A word just written to RAM is the word read back (R45, R46). -/
theorem State.readWord_writeWord_self {s : State} {va : Word} (hl : s.kindAt (s.lowAddr va) = .ram)
    (hh : s.kindAt (s.highAddr va) = .ram) (v : Word) : (s.writeWord va v).readWord va = v := by
  rw [State.readWord_eq (by simp [hh])]
  simp [State.octet_writeWord hl hh, (s.lowAddr_ne_highAddr va).symm]

theorem State.mem_wf_setOctet {s : State} (h : s.mem.wf) (p : PAddr) (v : Byte) : (s.setOctet p v).mem.wf := by
  rw [State.setOctet_mem]
  split
  · exact Memory.wf_write h p.isLt v
  · exact Memory.wf_writeAll h _

theorem State.mem_wf_writeWord {s : State} (h : s.mem.wf) (va v : Word) : (s.writeWord va v).mem.wf :=
  State.mem_wf_setOctet (State.mem_wf_setOctet h _ _) _ _

theorem State.mem_wf_push {s : State} (h : s.mem.wf) (v : Word) : (s.push v).mem.wf :=
  State.mem_wf_writeWord (s := s.setSp _) h _ _

/-- The record of transactions only grows by a write to the memory bus. -/
theorem State.busLog_setOctet_prefix (s : State) (p : PAddr) (v : Byte) : s.busLog <+: (s.setOctet p v).busLog := by
  rw [State.setOctet_busLog]
  split
  · exact List.prefix_refl _
  · exact List.prefix_append _ _

theorem State.busLog_writeWord_prefix (s : State) (va v : Word) : s.busLog <+: (s.writeWord va v).busLog :=
  (State.busLog_setOctet_prefix s _ _).trans (State.busLog_setOctet_prefix _ _ _)

/-! ## The heater's changes -/

/-- What one change of the heater leaves alone, and that memory and the queue stay in bounds (R206, D21). -/
theorem State.change_keeps (s : State) (c : StateChange) :
    (s.change c).hcr = s.hcr ∧ (s.change c).byt = s.byt ∧ (s.change c).skip = s.skip ∧
      (s.change c).busLog = s.busLog ∧ (s.change c).cfg = s.cfg ∧ (s.change c).inputs = s.inputs ∧
      (s.change c).turns = s.turns ∧ (s.mem.wf → (s.change c).mem.wf) ∧
      (s.iq.length ≤ Config.queueCapacity → (s.change c).iq.length ≤ Config.queueCapacity) := by
  cases c with
  | octet p v => exact ⟨rfl, rfl, rfl, rfl, rfl, rfl, rfl, fun h => Memory.wf_writeAll h _, id⟩
  | queue ms =>
    refine ⟨rfl, rfl, rfl, rfl, rfl, rfl, rfl, id, fun _ => ?_⟩
    simp only [State.change, State.setIq_iq, List.length_take]
    omega
  | _ => exact ⟨rfl, rfl, rfl, rfl, rfl, rfl, rfl, id, id⟩

/-- What any changes of the heater leave alone, and that memory and the queue stay in bounds (R206, D21). -/
theorem State.changeAll_keeps (s : State) (cs : List StateChange) :
    (s.changeAll cs).hcr = s.hcr ∧ (s.changeAll cs).byt = s.byt ∧ (s.changeAll cs).skip = s.skip ∧
      (s.changeAll cs).busLog = s.busLog ∧ (s.changeAll cs).cfg = s.cfg ∧ (s.changeAll cs).inputs = s.inputs ∧
      (s.changeAll cs).turns = s.turns ∧ (s.mem.wf → (s.changeAll cs).mem.wf) ∧
      (s.iq.length ≤ Config.queueCapacity → (s.changeAll cs).iq.length ≤ Config.queueCapacity) := by
  induction cs generalizing s with
  | nil => exact ⟨rfl, rfl, rfl, rfl, rfl, rfl, rfl, id, id⟩
  | cons c cs ih =>
    obtain ⟨h₁, h₂, h₃, h₄, h₅, h₆, h₇, h₈, h₉⟩ := ih (s.change c)
    obtain ⟨k₁, k₂, k₃, k₄, k₅, k₆, k₇, k₈, k₉⟩ := s.change_keeps c
    exact ⟨h₁.trans k₁, h₂.trans k₂, h₃.trans k₃, h₄.trans k₄, h₅.trans k₅, h₆.trans k₆, h₇.trans k₇,
      fun h => h₈ (k₈ h), fun h => h₉ (k₉ h)⟩

/-- What writing HCR comes to, whatever the heater does (R206). -/
theorem State.setHeater_keeps (s : State) (v : Word) :
    (s.setHeater v).hcr = v ∧ (s.setHeater v).byt = s.byt ∧ (s.setHeater v).skip = s.skip ∧
      (s.setHeater v).busLog = s.busLog ++ [.heater v] ∧ (s.setHeater v).cfg = s.cfg ∧
      (s.setHeater v).inputs = s.inputs ∧ (s.setHeater v).turns = s.turns ∧
      (s.mem.wf → (s.setHeater v).mem.wf) ∧
      (s.iq.length ≤ Config.queueCapacity → (s.setHeater v).iq.length ≤ Config.queueCapacity) :=
  State.changeAll_keeps ((s.setHcr v).logBus (.heater v)) _

/-! ## The stack -/

/-- All a push changes: SP, memory, and the record of transactions where the stack lies in a device (R114). -/
theorem State.push_eq (s : State) (v : Word) :
    s.push v = { s with sp := s.sp - s.wordStep, mem := (s.writeWord (s.sp - s.wordStep) v).mem,
                        busLog := (s.writeWord (s.sp - s.wordStep) v).busLog } := rfl

/-- All a pop changes: SP, and the record of transactions where the stack lies in a device (R114). -/
theorem State.pop_eq (s : State) :
    s.pop = (s.readWord s.sp, { s with sp := s.sp + s.wordStep,
                                       busLog := s.busLog ++ s.readEvents (s.wordAddrs s.sp) }) := rfl

/-- A pop takes back what a push stored in RAM. -/
theorem State.pop_push (s : State) (v : Word) (hl : s.kindAt (s.lowAddr (s.sp - s.wordStep)) = .ram)
    (hh : s.kindAt (s.highAddr (s.sp - s.wordStep)) = .ram) :
    (s.push v).pop = (v, { s with mem := (s.push v).mem }) := by
  have hn : ((s.setSp (s.sp - s.wordStep)).writeWord (s.sp - s.wordStep) v).noteRead
      (s.wordAddrs (s.sp - s.wordStep)) = (s.setSp (s.sp - s.wordStep)).writeWord (s.sp - s.wordStep) v := by
    refine State.noteRead_of_not_device fun q hq => ?_
    simp only [State.wordAddrs, List.mem_cons, List.not_mem_nil, or_false] at hq
    rcases hq with rfl | rfl
    · exact fun h => by simp [hl] at h
    · exact fun h => by simp [hh] at h
  have hb := State.busLog_writeWord (s := s.setSp (s.sp - s.wordStep)) hl hh v
  refine Prod.ext (State.readWord_writeWord_self (s := s.setSp _) hl hh v) ?_
  show (((s.setSp (s.sp - s.wordStep)).writeWord (s.sp - s.wordStep) v).noteRead
    (s.wordAddrs (s.sp - s.wordStep))).setSp (s.sp - s.wordStep + s.wordStep) = _
  rw [hn, BitVec.sub_add_cancel]
  show { s with mem := _, busLog := ((s.setSp (s.sp - s.wordStep)).writeWord (s.sp - s.wordStep) v).busLog } = _
  rw [hb]
  rfl

/-! ## The queue -/

/-- What queuing a message can do (R304, R306). -/
theorem State.enqueue_eq_some {s t : State} {m : Word} :
    s.enqueue m = some t ↔ s.iq.length < Config.queueCapacity ∧ t = s.setIq (s.iq ++ [m]) := by
  unfold State.enqueue
  split
  · rename_i h
    simp [h, eq_comm]
  · rename_i h
    simp [h]

/-! ## Interrupt entry, OS vector calls and the page exchange -/

/-- All an interrupt entry changes (R310). -/
theorem State.interruptEntry_eq (s : State) (m : Word) :
    s.interruptEntry m =
      (({ s with qf := true, pc := s.ia, sp := s.sp - s.wordStep - s.wordStep,
                 mem := ((s.push s.pc).push (s.reg .a)).mem,
                 busLog := ((s.push s.pc).push (s.reg .a)).busLog }).setReg .a m) := rfl

/-- An OS vector call with OVA = 0 does nothing (R321). -/
theorem State.osVectorCall_of_eq_zero {s : State} (h : s.ova = 0) (n m : Word) : s.osVectorCall n m = s := by
  simp [State.osVectorCall, h]

/-- All an OS vector call with OVA not 0 changes (R320). -/
theorem State.osVectorCall_of_ne_zero {s : State} (h : s.ova ≠ 0) (n m : Word) :
    s.osVectorCall n m =
      (({ s with pc := s.ova, sp := s.sp - s.wordStep - s.wordStep - s.wordStep,
                 mem := (((s.push s.pc).push (s.reg .a)).push (s.reg .b)).mem,
                 busLog := (((s.push s.pc).push (s.reg .a)).push (s.reg .b)).busLog,
                 emu := s.exchangePage.emu, ovm := s.exchangePage.ovm }).setReg .a m).setReg .b n := by
  simp only [State.osVectorCall, h, if_false, State.push_eq, State.exchangePage, State.setReg, State.setPc,
    State.setOvm, State.setPage, State.page, State.reg, State.wordStep]

@[simp] theorem blockField_packPage (p : Page) (b : Block) : blockField (packPage p b) = b :=
  BitVec.extractLsb'_append_eq_right

@[simp] theorem pageField_packPage (p : Page) (b : Block) : pageField (packPage p b) = p :=
  BitVec.extractLsb'_append_eq_left

@[simp] theorem packPage_fields (w : Word) : packPage (pageField w) (blockField w) = w := by
  simp only [packPage, pageField, blockField]
  rw [BitVec.extractLsb'_append_extractLsb'_eq_extractLsb' (by rfl)]
  exact BitVec.extractLsb'_eq_self

/-! ## Reset -/

/-- All a reset keeps: memory but for what the platform's reset sets, the platform's parameters and events, the
transactions made and the count of turns (R350, R353). -/
theorem State.resetAll_eq (s : State) :
    s.resetAll = { State.reset with
      emu := s.cfg.emuReset, mem := Memory.writeAll s.mem s.cfg.physBus.onReset, cfg := s.cfg, inputs := s.inputs,
      busLog := s.busLog ++ [.reset], turns := s.turns } := rfl

end Sys2Proof.Machine
end

