-- ==== Sys2Proof/Laws/Operands.lean ====
section
/-! SUPPORT. One lemma for each operand operation of Machine/Operands.lean that says what it changes. -/

namespace Sys2Proof.Machine

/-! ## Handling the operands changes PC, SP and the record of reads (R101, R103, R104) -/

theorem State.resolveA_snd (s : State) (a : Operand) :
    (s.resolveA a).2 =
      { s with pc := s.pc + s.wordsStep (operandNext a).length,
               sp := if a = .stack then s.sp + s.wordStep else s.sp,
               busLog := s.busLog ++ (operandNext a).flatMap fun _ => s.readEvents (s.wordAddrs s.pc) } := by
  cases a <;> simp [State.resolveA, State.resolveWith, State.pastWord, State.afterRead, State.noteRead, State.setPc,
    State.setSp, operandNext, State.wordsStep]

theorem State.resolveB_snd (s : State) (b : Operand) :
    (s.resolveB b).2 =
      { s with pc := s.pc + s.wordsStep (operandNext b).length,
               sp := if b = .stack then s.sp - s.wordStep else s.sp,
               busLog := s.busLog ++ (operandNext b).flatMap fun _ => s.readEvents (s.wordAddrs s.pc) } := by
  cases b <;> simp [State.resolveB, State.resolveWith, State.pastWord, State.afterRead, State.noteRead, State.setPc,
    State.setSp, operandNext, State.wordsStep]

/-- Handling operand a changes PC, SP and the record of reads. -/
theorem State.afterA_frame (s : State) (a : Operand) :
    ∃ pc sp log, s.afterA a = { s with pc := pc, sp := sp, busLog := s.busLog ++ log } := by
  refine ⟨(s.afterA a).pc, (s.afterA a).sp, s.readEvents (s.wordAddrs s.pc) ++
    (operandNext a).flatMap fun _ => s.pastWord.readEvents (s.pastWord.wordAddrs s.pastWord.pc), ?_⟩
  rw [State.afterA, State.resolveA_snd, ← List.append_assoc]
  rfl

/-- Reading operand a changes PC, SP and the record of reads. -/
theorem State.readA_frame (s : State) (a : Operand) :
    ∃ pc sp log, s.readA a = { s with pc := pc, sp := sp, busLog := s.busLog ++ log } := by
  obtain ⟨pc, sp, log, h⟩ := s.afterA_frame a
  refine ⟨pc, sp, log ++ s.readEvents ((s.afterA a).placeAddrs (s.placeA a)), ?_⟩
  rw [State.readA, h, ← List.append_assoc]
  rfl

/-- Handling operand b changes PC, SP and the record of reads. -/
theorem State.afterB_frame (s : State) (b a : Operand) :
    ∃ pc sp log, s.afterB b a = { s with pc := pc, sp := sp, busLog := s.busLog ++ log } := by
  obtain ⟨pc, sp, log, h⟩ := s.readA_frame a
  refine ⟨(s.afterB b a).pc, (s.afterB b a).sp, log ++ (operandNext b).flatMap fun _ =>
    (s.readA a).readEvents ((s.readA a).wordAddrs (s.readA a).pc), ?_⟩
  rw [State.afterB, State.resolveB_snd, h, ← List.append_assoc]

/-- Reading operand b changes PC, SP and the record of reads. -/
theorem State.readB_frame (s : State) (b a : Operand) :
    ∃ pc sp log, s.readB b a = { s with pc := pc, sp := sp, busLog := s.busLog ++ log } := by
  obtain ⟨pc, sp, log, h⟩ := s.afterB_frame b a
  refine ⟨pc, sp, log ++ s.readEvents ((s.afterB b a).placeAddrs (s.placeB b a)), ?_⟩
  rw [State.readB, h, ← List.append_assoc]
  rfl

/-! ## The direct output changes its own place only (R106) -/

section
variable (s : State) (mask : ByteMask) (p : Place) (v : Word)

@[simp] theorem State.writeMasked_pc (va : Word) : (s.writeMasked mask va v).pc = s.pc := by cases mask <;> rfl
@[simp] theorem State.writeMasked_sp (va : Word) : (s.writeMasked mask va v).sp = s.sp := by cases mask <;> rfl
@[simp] theorem State.writeMasked_ex (va : Word) : (s.writeMasked mask va v).ex = s.ex := by cases mask <;> rfl
@[simp] theorem State.writeMasked_regs (va : Word) : (s.writeMasked mask va v).regs = s.regs := by cases mask <;> rfl
@[simp] theorem State.writeMasked_ia (va : Word) : (s.writeMasked mask va v).ia = s.ia := by cases mask <;> rfl
@[simp] theorem State.writeMasked_ova (va : Word) : (s.writeMasked mask va v).ova = s.ova := by cases mask <;> rfl
@[simp] theorem State.writeMasked_ovm (va : Word) : (s.writeMasked mask va v).ovm = s.ovm := by cases mask <;> rfl
@[simp] theorem State.writeMasked_emu (va : Word) : (s.writeMasked mask va v).emu = s.emu := by cases mask <;> rfl
@[simp] theorem State.writeMasked_mode (va : Word) : (s.writeMasked mask va v).mode = s.mode := by cases mask <;> rfl
@[simp] theorem State.writeMasked_iq (va : Word) : (s.writeMasked mask va v).iq = s.iq := by cases mask <;> rfl
@[simp] theorem State.writeMasked_qf (va : Word) : (s.writeMasked mask va v).qf = s.qf := by cases mask <;> rfl
@[simp] theorem State.writeMasked_skip (va : Word) : (s.writeMasked mask va v).skip = s.skip := by cases mask <;> rfl
@[simp] theorem State.writeMasked_byt (va : Word) : (s.writeMasked mask va v).byt = s.byt := by cases mask <;> rfl
@[simp] theorem State.writeMasked_run (va : Word) : (s.writeMasked mask va v).run = s.run := by cases mask <;> rfl
@[simp] theorem State.writeMasked_hcr (va : Word) : (s.writeMasked mask va v).hcr = s.hcr := by cases mask <;> rfl
@[simp] theorem State.writeMasked_cfg (va : Word) : (s.writeMasked mask va v).cfg = s.cfg := by cases mask <;> rfl
@[simp] theorem State.writeMasked_inputs (va : Word) : (s.writeMasked mask va v).inputs = s.inputs := by cases mask <;> rfl
@[simp] theorem State.writeMasked_turns (va : Word) : (s.writeMasked mask va v).turns = s.turns := by cases mask <;> rfl

@[simp] theorem State.writeOp_ia : (s.writeOp mask p v).ia = s.ia := by cases p <;> simp [State.writeOp]
@[simp] theorem State.writeOp_ova : (s.writeOp mask p v).ova = s.ova := by cases p <;> simp [State.writeOp]
@[simp] theorem State.writeOp_ovm : (s.writeOp mask p v).ovm = s.ovm := by cases p <;> simp [State.writeOp]
@[simp] theorem State.writeOp_emu : (s.writeOp mask p v).emu = s.emu := by cases p <;> simp [State.writeOp]
@[simp] theorem State.writeOp_mode : (s.writeOp mask p v).mode = s.mode := by cases p <;> simp [State.writeOp]
@[simp] theorem State.writeOp_iq : (s.writeOp mask p v).iq = s.iq := by cases p <;> simp [State.writeOp]
@[simp] theorem State.writeOp_qf : (s.writeOp mask p v).qf = s.qf := by cases p <;> simp [State.writeOp]
@[simp] theorem State.writeOp_skip : (s.writeOp mask p v).skip = s.skip := by cases p <;> simp [State.writeOp]
@[simp] theorem State.writeOp_byt : (s.writeOp mask p v).byt = s.byt := by cases p <;> simp [State.writeOp]
@[simp] theorem State.writeOp_run : (s.writeOp mask p v).run = s.run := by cases p <;> simp [State.writeOp]
@[simp] theorem State.writeOp_hcr : (s.writeOp mask p v).hcr = s.hcr := by cases p <;> simp [State.writeOp]
@[simp] theorem State.writeOp_cfg : (s.writeOp mask p v).cfg = s.cfg := by cases p <;> simp [State.writeOp]
@[simp] theorem State.writeOp_inputs : (s.writeOp mask p v).inputs = s.inputs := by cases p <;> simp [State.writeOp]
@[simp] theorem State.writeOp_turns : (s.writeOp mask p v).turns = s.turns := by cases p <;> simp [State.writeOp]

/-- Memory keeps its canonical form under a direct output. -/
theorem State.mem_wf_writeOp {s : State} (h : s.mem.wf) (mask : ByteMask) (p : Place) (v : Word) :
    (s.writeOp mask p v).mem.wf := by
  cases p with
  | mem va =>
    cases mask with
    | off => exact State.mem_wf_writeWord h va v
    | protectHigh => exact State.mem_wf_setOctet h _ _
    | protectLow => exact State.mem_wf_setOctet h _ _
  | _ => exact h

/-- The record of transactions only grows by a direct output. -/
theorem State.busLog_writeOp_prefix : s.busLog <+: (s.writeOp mask p v).busLog := by
  cases p with
  | mem va =>
    cases mask with
    | off => exact State.busLog_writeWord_prefix s va v
    | protectHigh => exact State.busLog_setOctet_prefix s _ _
    | protectLow => exact State.busLog_setOctet_prefix s _ _
  | _ => exact List.prefix_refl _

/-- The octets a direct output to RAM stores to read as the new value's, every other octet reads as before (R106, R47,
R52). -/
theorem State.octet_writeMasked (va : Word) (q : PAddr) (hl : mask ≠ .protectLow → s.kindAt (s.lowAddr va) = .ram)
    (hh : mask ≠ .protectHigh → s.kindAt (s.highAddr va) = .ram) :
    (s.writeMasked mask va v).octet q =
      if q = s.lowAddr va ∧ mask ≠ .protectLow then lowOctet v
      else if q = s.highAddr va ∧ mask ≠ .protectHigh then highOctet v
      else s.octet q := by
  cases mask with
  | off => simp [State.writeMasked, State.octet_writeWord (hl (by simp)) (hh (by simp))]
  | protectHigh => simp [State.writeMasked, State.writeLow, State.octet_setOctet (hl (by simp))]
  | protectLow => simp [State.writeMasked, State.writeHigh, State.octet_setOctet (hh (by simp))]

end

end Sys2Proof.Machine
end

