-- ==== Sys2Proof/Laws/Cycle.lean ====
section
/-! SUPPORT. What skipping, the boundary and the fetch can do (Machine/Cycle.lean, Machine/Fetch.lean,
Machine/Step.lean). -/

namespace Sys2Proof.Machine

/-! ## Skipping changes PC, SKIP, BYT and the record of reads (R178) -/

theorem skipLoop_frame (fuel : Nat) (s : State) :
    ∃ pc skip byt log, skipLoop fuel s = { s with pc := pc, skip := skip, byt := byt, busLog := s.busLog ++ log } := by
  induction fuel generalizing s with
  | zero => exact ⟨s.pc, true, s.byt, [], by rw [List.append_nil]; rfl⟩
  | succ n ih =>
    unfold skipLoop
    split
    · obtain ⟨pc, skip, byt, log, h⟩ := ih s.pastInstr
      refine ⟨pc, skip, byt, s.readEvents (s.wordAddrs s.pc) ++ log, ?_⟩
      rw [h, ← List.append_assoc]
      rfl
    · exact ⟨s.pastInstr.pc, false, .off, _, rfl⟩

theorem State.skipChain_frame (s : State) :
    ∃ pc skip byt log, s.skipChain = { s with pc := pc, skip := skip, byt := byt, busLog := s.busLog ++ log } :=
  skipLoop_frame skipFuel s

/-- A finished skip leaves BYT off; an unfinished one leaves it as it was (R178, R180). -/
theorem skipLoop_byt (fuel : Nat) (s : State) :
    (skipLoop fuel s).skip = true ∧ (skipLoop fuel s).byt = s.byt ∨
      (skipLoop fuel s).skip = false ∧ (skipLoop fuel s).byt = .off := by
  induction fuel generalizing s with
  | zero => exact .inl ⟨rfl, rfl⟩
  | succ n ih =>
    unfold skipLoop
    split
    · simpa [State.pastInstr] using ih s.pastInstr
    · exact .inr ⟨rfl, rfl⟩

/-! ## The boundary -/

/-- What the delivery phase can do (R100, R310, R311). -/
theorem State.deliver_cases (s : State) :
    s.deliver = s ∨
      ∃ m rest, s.iq = m :: rest ∧ s.qf = false ∧ s.byt = .off ∧
        (s.ia ≠ 0 ∧ s.deliver = (s.setIq rest).interruptEntry m ∨ s.ia = 0 ∧ s.deliver = s.setIq rest) := by
  unfold State.deliver
  split
  · exact .inl rfl
  · rename_i m rest hq
    split
    · rename_i h
      refine .inr ⟨m, rest, hq, h.1, h.2, ?_⟩
      split
      · rename_i hia
        exact .inl ⟨hia, rfl⟩
      · rename_i hia
        exact .inr ⟨not_not.1 hia, rfl⟩
    · exact .inl rfl

/-- What a step can do: the boundary stops, is idle, or performs the instruction at PC (R100). -/
theorem step_cases (s : State) :
    (∃ f, s.boundary = .stop f ∧ step s = .fault f) ∨
      (∃ t, s.boundary = .idle t ∧ step s = .next t) ∨
      ∃ t, s.boundary = .perform t ∧ step s = exec t.fetchInstr t := by
  unfold step
  cases h : s.boundary with
  | stop f => exact .inl ⟨f, rfl, rfl⟩
  | idle t => exact .inr (.inl ⟨t, rfl, rfl⟩)
  | perform t => exact .inr (.inr ⟨t, rfl, rfl⟩)

/-! ## Fetch -/

/-- A little-endian word and its two octets. -/
theorem takeWords_octets (k : Nat) (w : Word) (bytes : List Byte) :
    takeWords (k + 1) (lowOctet w :: highOctet w :: bytes) =
      (takeWords k bytes).map fun p => (w :: p.1, p.2) := by
  simp only [takeWords, joinOctets_low_high]
  cases takeWords k bytes <;> rfl

/-- An instruction is one to three words long (R70). -/
theorem instrLength_bounds (w : Word) : 1 ≤ instrLength w ∧ instrLength w ≤ 3 := by
  have h (c : BitVec 6) : nextCount c ≤ 1 := by
    unfold nextCount
    split <;> omega
  unfold instrLength
  have h₁ := h (aField w)
  have h₂ := h ((bField w).setWidth 6)
  split
  · omega
  · split <;> omega

end Sys2Proof.Machine
end

