-- ==== Sys2Proof/Laws/Decode.lean ====
section
/-! SUPPORT. The fields of an encoded first word, and the next words an operand code asks for. -/

namespace Sys2Proof

section
variable (a : BitVec 6) (b o : BitVec 5)

@[simp] theorem opField_append : opField (a ++ b ++ o : Word) = o :=
  BitVec.extractLsb'_append_eq_right

@[simp] theorem bField_append : bField (a ++ b ++ o : Word) = b := by
  simp only [bField, BitVec.extractLsb'_append_eq_ite]
  simp

@[simp] theorem aField_append : aField (a ++ b ++ o : Word) = a := by
  simp only [aField, BitVec.extractLsb'_append_eq_ite]
  simp

@[simp] theorem impliedField_append (v : BitVec 1) : impliedField (v ++ o ++ 0#10 : Word) = o := by
  simp only [impliedField, BitVec.extractLsb'_append_eq_ite]
  simp

@[simp] theorem vField_append (v : Bool) : vField (BitVec.ofBool v ++ o ++ 0#10 : Word) = v := by
  revert v o
  decide

end

/-- An operand's code asks for as many next words as the operand has (R75). -/
theorem nextCount_operandCode {a : Operand} (h : a.okAsA = true) :
    nextCount (operandCode a) = (operandNext a).length := by
  have hr : ∀ c : BitVec 3, nextCount (0b000#3 ++ c) = 0 ∧ nextCount (0b001#3 ++ c) = 0 ∧
      nextCount (0b010#3 ++ c) = 1 := by decide
  cases a with
  | reg r => exact (hr (regNumber r)).1
  | ind r => exact (hr (regNumber r)).2.1
  | indNext r n => exact (hr (regNumber r)).2.2
  | inline n =>
    have hk : ∀ c : BitVec 6, 0x20 ≤ c.toNat → nextCount c = 0 := by decide
    refine hk _ ?_
    simp only [Operand.okAsA, inlineRange, Bool.or_eq_true, beq_iff_eq, decide_eq_true_eq] at h
    rcases h with rfl | h
    · decide
    · show 0x20 ≤ ((n + 0x21#16).setWidth 6).toNat
      simp only [BitVec.toNat_setWidth, BitVec.toNat_add, BitVec.toNat_ofNat]
      omega
  | _ => rfl

/-- A b operand's code loses nothing in the five-bit field (R76). -/
theorem operandCode_asB {b : Operand} (h : b.okAsB = true) :
    ((operandCode b).setWidth 5).setWidth 6 = operandCode b := by
  have hr : ∀ c : BitVec 3, ((0b000#3 ++ c).setWidth 5).setWidth 6 = 0b000#3 ++ c ∧
      ((0b001#3 ++ c).setWidth 5).setWidth 6 = 0b001#3 ++ c ∧
      ((0b010#3 ++ c).setWidth 5).setWidth 6 = 0b010#3 ++ c := by decide
  cases b with
  | reg r => exact (hr (regNumber r)).1
  | ind r => exact (hr (regNumber r)).2.1
  | indNext r n => exact (hr (regNumber r)).2.2
  | inline n => exact absurd h (by simp [Operand.okAsB])
  | _ => rfl

theorem Operand.okAsA_of_okAsB {b : Operand} (h : b.okAsB = true) : b.okAsA = true := by
  cases b <;> first | rfl | exact absurd h (by simp [Operand.okAsB])

/-! ## The length rule on encoded words (R75) -/

theorem basicWords_length {o : BitVec 5} (ho : o ≠ 0#5) {b a : Operand} (hb : b.okAsB = true) (ha : a.okAsA = true) :
    (basicWords o b a).length = instrLength ((basicWords o b a).headD 0) := by
  simp only [basicWords, List.length_cons, List.length_append, List.headD_cons, instrLength, opField_append,
    aField_append, bField_append, operandCode_asB hb, nextCount_operandCode ha,
    nextCount_operandCode (Operand.okAsA_of_okAsB hb), ho, ne_eq, not_false_eq_true, if_true]
  omega

theorem specialWords_length {o : BitVec 5} (ho : o ≠ 0#5) {a : Operand} (ha : a.okAsA = true) :
    (specialWords o a).length = instrLength ((specialWords o a).headD 0) := by
  simp only [specialWords, List.length_cons, List.headD_cons, instrLength, opField_append, aField_append,
    bField_append, nextCount_operandCode ha, ho, ne_eq, not_true_eq_false, not_false_eq_true, if_true, if_false]
  omega

theorem impliedWords_length (o : BitVec 5) (v : Bool) :
    (impliedWords o v).length = instrLength ((impliedWords o v).headD 0) := by
  have h : ∀ (o : BitVec 5) (v : Bool), instrLength (BitVec.ofBool v ++ o ++ 0#10 : Word) = 1 := by decide
  exact (h o v).symm

end Sys2Proof
end

