-- ==== Sys2Proof/Laws/PerInstr.lean ====
section
/-! SUPPORT. The law families over every instruction as syntax, one lemma per constructor. -/

namespace Sys2Proof.Laws.LengthFromFirstWord

/-- The words of a well-formed instruction are as many as its first word says (R70, R75). -/
def Statement (i : Instr) : Prop :=
  i.wellFormed = true → (encode i).length = instrLength ((encode i).headD 0)

theorem set (b a : Operand) : Statement (.set b a) := fun h =>
  basicWords_length (by decide) (Bool.and_eq_true_iff.1 h).1 (Bool.and_eq_true_iff.1 h).2
theorem add (b a : Operand) : Statement (.add b a) := fun h =>
  basicWords_length (by decide) (Bool.and_eq_true_iff.1 h).1 (Bool.and_eq_true_iff.1 h).2
theorem sub (b a : Operand) : Statement (.sub b a) := fun h =>
  basicWords_length (by decide) (Bool.and_eq_true_iff.1 h).1 (Bool.and_eq_true_iff.1 h).2
theorem mul (b a : Operand) : Statement (.mul b a) := fun h =>
  basicWords_length (by decide) (Bool.and_eq_true_iff.1 h).1 (Bool.and_eq_true_iff.1 h).2
theorem mli (b a : Operand) : Statement (.mli b a) := fun h =>
  basicWords_length (by decide) (Bool.and_eq_true_iff.1 h).1 (Bool.and_eq_true_iff.1 h).2
theorem div (b a : Operand) : Statement (.div b a) := fun h =>
  basicWords_length (by decide) (Bool.and_eq_true_iff.1 h).1 (Bool.and_eq_true_iff.1 h).2
theorem dvi (b a : Operand) : Statement (.dvi b a) := fun h =>
  basicWords_length (by decide) (Bool.and_eq_true_iff.1 h).1 (Bool.and_eq_true_iff.1 h).2
theorem mod (b a : Operand) : Statement (.mod b a) := fun h =>
  basicWords_length (by decide) (Bool.and_eq_true_iff.1 h).1 (Bool.and_eq_true_iff.1 h).2
theorem mdi (b a : Operand) : Statement (.mdi b a) := fun h =>
  basicWords_length (by decide) (Bool.and_eq_true_iff.1 h).1 (Bool.and_eq_true_iff.1 h).2
theorem and (b a : Operand) : Statement (.and b a) := fun h =>
  basicWords_length (by decide) (Bool.and_eq_true_iff.1 h).1 (Bool.and_eq_true_iff.1 h).2
theorem bor (b a : Operand) : Statement (.bor b a) := fun h =>
  basicWords_length (by decide) (Bool.and_eq_true_iff.1 h).1 (Bool.and_eq_true_iff.1 h).2
theorem xor (b a : Operand) : Statement (.xor b a) := fun h =>
  basicWords_length (by decide) (Bool.and_eq_true_iff.1 h).1 (Bool.and_eq_true_iff.1 h).2
theorem shr (b a : Operand) : Statement (.shr b a) := fun h =>
  basicWords_length (by decide) (Bool.and_eq_true_iff.1 h).1 (Bool.and_eq_true_iff.1 h).2
theorem asr (b a : Operand) : Statement (.asr b a) := fun h =>
  basicWords_length (by decide) (Bool.and_eq_true_iff.1 h).1 (Bool.and_eq_true_iff.1 h).2
theorem shl (b a : Operand) : Statement (.shl b a) := fun h =>
  basicWords_length (by decide) (Bool.and_eq_true_iff.1 h).1 (Bool.and_eq_true_iff.1 h).2
theorem ifb (b a : Operand) : Statement (.ifb b a) := fun h =>
  basicWords_length (by decide) (Bool.and_eq_true_iff.1 h).1 (Bool.and_eq_true_iff.1 h).2
theorem ifc (b a : Operand) : Statement (.ifc b a) := fun h =>
  basicWords_length (by decide) (Bool.and_eq_true_iff.1 h).1 (Bool.and_eq_true_iff.1 h).2
theorem ife (b a : Operand) : Statement (.ife b a) := fun h =>
  basicWords_length (by decide) (Bool.and_eq_true_iff.1 h).1 (Bool.and_eq_true_iff.1 h).2
theorem ifn (b a : Operand) : Statement (.ifn b a) := fun h =>
  basicWords_length (by decide) (Bool.and_eq_true_iff.1 h).1 (Bool.and_eq_true_iff.1 h).2
theorem ifg (b a : Operand) : Statement (.ifg b a) := fun h =>
  basicWords_length (by decide) (Bool.and_eq_true_iff.1 h).1 (Bool.and_eq_true_iff.1 h).2
theorem ifa (b a : Operand) : Statement (.ifa b a) := fun h =>
  basicWords_length (by decide) (Bool.and_eq_true_iff.1 h).1 (Bool.and_eq_true_iff.1 h).2
theorem ifl (b a : Operand) : Statement (.ifl b a) := fun h =>
  basicWords_length (by decide) (Bool.and_eq_true_iff.1 h).1 (Bool.and_eq_true_iff.1 h).2
theorem ifu (b a : Operand) : Statement (.ifu b a) := fun h =>
  basicWords_length (by decide) (Bool.and_eq_true_iff.1 h).1 (Bool.and_eq_true_iff.1 h).2
theorem reservedBasic18 (b a : Operand) : Statement (.reservedBasic18 b a) := fun h =>
  basicWords_length (by decide) (Bool.and_eq_true_iff.1 h).1 (Bool.and_eq_true_iff.1 h).2
theorem reservedBasic19 (b a : Operand) : Statement (.reservedBasic19 b a) := fun h =>
  basicWords_length (by decide) (Bool.and_eq_true_iff.1 h).1 (Bool.and_eq_true_iff.1 h).2
theorem adx (b a : Operand) : Statement (.adx b a) := fun h =>
  basicWords_length (by decide) (Bool.and_eq_true_iff.1 h).1 (Bool.and_eq_true_iff.1 h).2
theorem sbx (b a : Operand) : Statement (.sbx b a) := fun h =>
  basicWords_length (by decide) (Bool.and_eq_true_iff.1 h).1 (Bool.and_eq_true_iff.1 h).2
theorem hww (b a : Operand) : Statement (.hww b a) := fun h =>
  basicWords_length (by decide) (Bool.and_eq_true_iff.1 h).1 (Bool.and_eq_true_iff.1 h).2
theorem hwr (b a : Operand) : Statement (.hwr b a) := fun h =>
  basicWords_length (by decide) (Bool.and_eq_true_iff.1 h).1 (Bool.and_eq_true_iff.1 h).2
theorem sti (b a : Operand) : Statement (.sti b a) := fun h =>
  basicWords_length (by decide) (Bool.and_eq_true_iff.1 h).1 (Bool.and_eq_true_iff.1 h).2
theorem std (b a : Operand) : Statement (.std b a) := fun h =>
  basicWords_length (by decide) (Bool.and_eq_true_iff.1 h).1 (Bool.and_eq_true_iff.1 h).2
theorem jsr (a : Operand) : Statement (.jsr a) := fun h => specialWords_length (by decide) h
theorem bsr (a : Operand) : Statement (.bsr a) := fun h => specialWords_length (by decide) h
theorem reservedSpecial03 (a : Operand) : Statement (.reservedSpecial03 a) := fun h => specialWords_length (by decide) h
theorem reservedSpecial04 (a : Operand) : Statement (.reservedSpecial04 a) := fun h => specialWords_length (by decide) h
theorem neg (a : Operand) : Statement (.neg a) := fun h => specialWords_length (by decide) h
theorem reservedSpecial06 (a : Operand) : Statement (.reservedSpecial06 a) := fun h => specialWords_length (by decide) h
theorem hcf (a : Operand) : Statement (.hcf a) := fun h => specialWords_length (by decide) h
theorem int (a : Operand) : Statement (.int a) := fun h => specialWords_length (by decide) h
theorem iag (a : Operand) : Statement (.iag a) := fun h => specialWords_length (by decide) h
theorem ias (a : Operand) : Statement (.ias a) := fun h => specialWords_length (by decide) h
theorem rfi (a : Operand) : Statement (.rfi a) := fun h => specialWords_length (by decide) h
theorem iaq (a : Operand) : Statement (.iaq a) := fun h => specialWords_length (by decide) h
theorem reservedSpecial0d (a : Operand) : Statement (.reservedSpecial0d a) := fun h => specialWords_length (by decide) h
theorem mmw (a : Operand) : Statement (.mmw a) := fun h => specialWords_length (by decide) h
theorem mmr (a : Operand) : Statement (.mmr a) := fun h => specialWords_length (by decide) h
theorem osn (a : Operand) : Statement (.osn a) := fun h => specialWords_length (by decide) h
theorem osq (a : Operand) : Statement (.osq a) := fun h => specialWords_length (by decide) h
theorem osi (a : Operand) : Statement (.osi a) := fun h => specialWords_length (by decide) h
theorem osr (a : Operand) : Statement (.osr a) := fun h => specialWords_length (by decide) h
theorem sxb (a : Operand) : Statement (.sxb a) := fun h => specialWords_length (by decide) h
theorem swp (a : Operand) : Statement (.swp a) := fun h => specialWords_length (by decide) h
theorem reservedSpecial16 (a : Operand) : Statement (.reservedSpecial16 a) := fun h => specialWords_length (by decide) h
theorem reservedSpecial17 (a : Operand) : Statement (.reservedSpecial17 a) := fun h => specialWords_length (by decide) h
theorem rfo (a : Operand) : Statement (.rfo a) := fun h => specialWords_length (by decide) h
theorem reservedSpecial19 (a : Operand) : Statement (.reservedSpecial19 a) := fun h => specialWords_length (by decide) h
theorem omg (a : Operand) : Statement (.omg a) := fun h => specialWords_length (by decide) h
theorem oms (a : Operand) : Statement (.oms a) := fun h => specialWords_length (by decide) h
theorem ovg (a : Operand) : Statement (.ovg a) := fun h => specialWords_length (by decide) h
theorem ovs (a : Operand) : Statement (.ovs a) := fun h => specialWords_length (by decide) h
theorem reservedSpecial1e (a : Operand) : Statement (.reservedSpecial1e a) := fun h => specialWords_length (by decide) h
theorem cme (a : Operand) : Statement (.cme a) := fun h => specialWords_length (by decide) h
theorem hlt (v : Bool) : Statement (.hlt v) := fun _ => impliedWords_length _ v
theorem slp (v : Bool) : Statement (.slp v) := fun _ => impliedWords_length _ v
theorem sfr (v : Bool) : Statement (.sfr v) := fun _ => impliedWords_length _ v
theorem reservedImplied03 (v : Bool) : Statement (.reservedImplied03 v) := fun _ => impliedWords_length _ v
theorem byt (v : Bool) : Statement (.byt v) := fun _ => impliedWords_length _ v
theorem reservedImplied05 (v : Bool) : Statement (.reservedImplied05 v) := fun _ => impliedWords_length _ v
theorem reservedImplied06 (v : Bool) : Statement (.reservedImplied06 v) := fun _ => impliedWords_length _ v
theorem reservedImplied07 (v : Bool) : Statement (.reservedImplied07 v) := fun _ => impliedWords_length _ v
theorem reservedImplied08 (v : Bool) : Statement (.reservedImplied08 v) := fun _ => impliedWords_length _ v
theorem reservedImplied09 (v : Bool) : Statement (.reservedImplied09 v) := fun _ => impliedWords_length _ v
theorem reservedImplied0a (v : Bool) : Statement (.reservedImplied0a v) := fun _ => impliedWords_length _ v
theorem reservedImplied0b (v : Bool) : Statement (.reservedImplied0b v) := fun _ => impliedWords_length _ v
theorem reservedImplied0c (v : Bool) : Statement (.reservedImplied0c v) := fun _ => impliedWords_length _ v
theorem reservedImplied0d (v : Bool) : Statement (.reservedImplied0d v) := fun _ => impliedWords_length _ v
theorem reservedImplied0e (v : Bool) : Statement (.reservedImplied0e v) := fun _ => impliedWords_length _ v
theorem reservedImplied0f (v : Bool) : Statement (.reservedImplied0f v) := fun _ => impliedWords_length _ v
theorem skp (v : Bool) : Statement (.skp v) := fun _ => impliedWords_length _ v
theorem reservedImplied11 (v : Bool) : Statement (.reservedImplied11 v) := fun _ => impliedWords_length _ v
theorem reservedImplied12 (v : Bool) : Statement (.reservedImplied12 v) := fun _ => impliedWords_length _ v
theorem reservedImplied13 (v : Bool) : Statement (.reservedImplied13 v) := fun _ => impliedWords_length _ v
theorem reservedImplied14 (v : Bool) : Statement (.reservedImplied14 v) := fun _ => impliedWords_length _ v
theorem reservedImplied15 (v : Bool) : Statement (.reservedImplied15 v) := fun _ => impliedWords_length _ v
theorem reservedImplied16 (v : Bool) : Statement (.reservedImplied16 v) := fun _ => impliedWords_length _ v
theorem reservedImplied17 (v : Bool) : Statement (.reservedImplied17 v) := fun _ => impliedWords_length _ v
theorem reservedImplied18 (v : Bool) : Statement (.reservedImplied18 v) := fun _ => impliedWords_length _ v
theorem reservedImplied19 (v : Bool) : Statement (.reservedImplied19 v) := fun _ => impliedWords_length _ v
theorem reservedImplied1a (v : Bool) : Statement (.reservedImplied1a v) := fun _ => impliedWords_length _ v
theorem reservedImplied1b (v : Bool) : Statement (.reservedImplied1b v) := fun _ => impliedWords_length _ v
theorem reservedImplied1c (v : Bool) : Statement (.reservedImplied1c v) := fun _ => impliedWords_length _ v
theorem reservedImplied1d (v : Bool) : Statement (.reservedImplied1d v) := fun _ => impliedWords_length _ v
theorem reservedImplied1e (v : Bool) : Statement (.reservedImplied1e v) := fun _ => impliedWords_length _ v
theorem reservedImplied1f (v : Bool) : Statement (.reservedImplied1f v) := fun _ => impliedWords_length _ v

end Sys2Proof.Laws.LengthFromFirstWord
end

