-- ==== Sys2Proof/Tests/Slice0.lean ====
section
/-! SUPPORT. Tests. Expected values are the spec's: 95_test_vectors.md part 2, the examples of the rules, and words
written out from the format rules R71 to R73. Then the ill-formed terms that `Instr.wellFormed` refuses, and for each
obligation with hypotheses a state and operands that meet them together. -/

namespace Sys2Proof.Tests

open Sys2Proof Sys2Proof.Machine Sys2Proof.Safety

/-! ## Helpers -/

/-- The next state, where there is one. -/
def after : Host.Outcome State Fault Refusal → Option State
  | .next t => some t
  | _ => none

/-- The fault, where there is one. -/
def faultOf : Host.Outcome State Fault Refusal → Option Fault
  | .fault f => some f
  | _ => none

/-- The reset state. -/
def r₀ : State := State.reset

/-- The state with words stored at virtual addresses. -/
def load (s : State) (ws : List (Word × Word)) : State := ws.foldl (fun t w => t.writeWord w.1 w.2) s

/-- A and EX after an instruction on A and B. -/
def alu (i : Operand → Operand → Instr) (b a ex : Word) : Option (Word × Word) :=
  (after (exec (i (.reg .a) (.reg .b)) { (r₀.setReg .a b).setReg .b a with ex := ex })).map fun t => (t.reg .a, t.ex)

/-- PC after a conditional on A and B at address 0 before a one-word instruction: 2 where the test holds, else 4. -/
def pcOfTest (i : Operand → Operand → Instr) (b a : Word) : Option Word :=
  (after (exec (i (.reg .a) (.reg .b)) (load ((r₀.setReg .a b).setReg .b a) [(2, 0x8801)]))).map (·.pc)

/-- A after a special instruction on A. -/
def onA (i : Operand → Instr) (a : Word) : Option Word :=
  (after (exec (i (.reg .a)) (r₀.setReg .a a))).map (·.reg .a)

/-- A queue of `n` messages. -/
def queueOf (n : Nat) : List Word := List.replicate n 1

theorem queueOf_length (n : Nat) : (queueOf n).length = n := List.length_replicate

/-- INT is a fault in every state that holds 256 messages (R306). -/
theorem int_of_full {s : State} (h : s.iq.length = 256) (a : Operand) : exec (.int a) s = .fault .queueOverflow := by
  have hq : (s.readA a).iq.length = 256 := by
    obtain ⟨pc, sp, log, hr⟩ := s.readA_frame a
    rw [hr]
    exact h
  simp only [exec, execInt, State.enqueue, hq, Nat.lt_irrefl, if_false, finishEnqueue]

/-- Does the decoder read each word, of so many bits, as the instruction beside it. -/
def readsAs (l : List (Nat × Nat × Instr)) : Bool :=
  l.all fun p => decodeTableWord p.1 p.2.1 == some p.2.2

/-! ## Decoding -/

/-- One word for each basic opcode of the lower half of its map, written out by the format rule R71. -/
theorem test_decode_basic_low : readsAs [
    (16, 0x0441, .set (.reg .c) (.reg .b)),
    (32, 0x00076b02, .add .stack (.pick 0x0007)),
    (32, 0x80017f63, .sub .sp (.literal 0x8001)),
    (32, 0x100023c4, .mul (.absolute 0x1000) (.ind .a)),
    (32, 0x12345dc5, .mli (.ind .i) (.indNext .j 0x1234)),
    (32, 0x0fff7286, .div (.indNext .y 0x0fff) .pc),
    (32, 0xfffe8747, .dvi (.pick 0xfffe) (.inline 0x0000)),
    (16, 0xcba8, .mod .ex (.inline 0x0011)),
    (16, 0x64e9, .mdi (.reg .j) .peek),
    (32, 0x2000796a, .and (.ind .x) (.absolute 0x2000)),
    (16, 0x1b2b, .bor .peek (.reg .i)),
    (16, 0x378c, .xor .pc (.ind .z)),
    (32, 0x00ff6fed, .shr (.literal 0x00ff) .sp),
    (16, 0x804e, .asr (.reg .c) (.inline 0xffff)),
    (32, 0xfffe4b0f, .shl .stack (.indNext .c 0xfffe)),
    (16, 0x6370, .ifb .sp .stack)] = true := by decide

/-- One word for each basic opcode of the upper half of its map, written out by the format rule R71. -/
theorem test_decode_basic_high : readsAs [
    (32, 0x100077d1, .ifc (.absolute 0x1000) .ex),
    (16, 0xfdd2, .ife (.ind .i) (.inline 0x001e)),
    (32, 0x0fff0693, .ifn (.indNext .y 0x0fff) (.reg .b)),
    (48, 0xfffe00076b54, .ifg (.pick 0xfffe) (.pick 0x0007)),
    (32, 0x80017fb5, .ifa .ex (.literal 0x8001)),
    (16, 0x20f6, .ifl (.reg .j) (.ind .a)),
    (32, 0x12345d77, .ifu (.ind .x) (.indNext .j 0x1234)),
    (16, 0x7338, .reservedBasic18 .peek .pc),
    (16, 0x8799, .reservedBasic19 .pc (.inline 0x0000)),
    (32, 0x00ffcbfa, .adx (.literal 0x00ff) (.inline 0x0011)),
    (16, 0x645b, .sbx (.reg .c) .peek),
    (32, 0x20007b1c, .hww .stack (.absolute 0x2000)),
    (16, 0x1b7d, .hwr .sp (.reg .i)),
    (32, 0x100037de, .sti (.absolute 0x1000) (.ind .z)),
    (16, 0x6ddf, .std (.ind .i) .sp)] = true := by decide

/-- One word for each special opcode of the lower half of its map, written out by the format rule R72. -/
theorem test_decode_special_low : readsAs [
    (16, 0x8020, .jsr (.inline 0xffff)),
    (32, 0xfffe4840, .bsr (.indNext .c 0xfffe)),
    (16, 0x6060, .reservedSpecial03 .stack),
    (16, 0x7480, .reservedSpecial04 .ex),
    (16, 0xfca0, .neg (.inline 0x001e)),
    (16, 0x04c0, .reservedSpecial06 (.reg .b)),
    (32, 0x000768e0, .hcf (.pick 0x0007)),
    (32, 0x80017d00, .int (.literal 0x8001)),
    (16, 0x2120, .iag (.ind .a)),
    (32, 0x12345d40, .ias (.indNext .j 0x1234)),
    (16, 0x7160, .rfi .pc),
    (16, 0x8580, .iaq (.inline 0x0000)),
    (16, 0xc9a0, .reservedSpecial0d (.inline 0x0011)),
    (16, 0x65c0, .mmw .peek),
    (32, 0x200079e0, .mmr (.absolute 0x2000)),
    (16, 0x1a00, .osn (.reg .i))] = true := by decide

/-- One word for each special opcode of the upper half of its map, written out by the format rule R72. -/
theorem test_decode_special_high : readsAs [
    (16, 0x3620, .osq (.ind .z)),
    (16, 0x6e40, .osi .sp),
    (16, 0x8260, .osr (.inline 0xffff)),
    (32, 0xfffe4a80, .sxb (.indNext .c 0xfffe)),
    (16, 0x62a0, .swp .stack),
    (16, 0x76c0, .reservedSpecial16 .ex),
    (16, 0xfee0, .reservedSpecial17 (.inline 0x001e)),
    (16, 0x0700, .rfo (.reg .b)),
    (32, 0x00076b20, .reservedSpecial19 (.pick 0x0007)),
    (32, 0x80017f40, .omg (.literal 0x8001)),
    (16, 0x2360, .oms (.ind .a)),
    (32, 0x12345f80, .ovg (.indNext .j 0x1234)),
    (16, 0x73a0, .ovs .pc),
    (16, 0x87c0, .reservedSpecial1e (.inline 0x0000)),
    (16, 0xcbe0, .cme (.inline 0x0011))] = true := by decide

/-- One word for each implied opcode of the lower half of its map, written out by the format rule R73. -/
theorem test_decode_implied_low : readsAs [
    (16, 0x0000, .hlt false),
    (16, 0x8400, .slp true),
    (16, 0x0800, .sfr false),
    (16, 0x8c00, .reservedImplied03 true),
    (16, 0x1000, .byt false),
    (16, 0x9400, .reservedImplied05 true),
    (16, 0x1800, .reservedImplied06 false),
    (16, 0x9c00, .reservedImplied07 true),
    (16, 0x2000, .reservedImplied08 false),
    (16, 0xa400, .reservedImplied09 true),
    (16, 0x2800, .reservedImplied0a false),
    (16, 0xac00, .reservedImplied0b true),
    (16, 0x3000, .reservedImplied0c false),
    (16, 0xb400, .reservedImplied0d true),
    (16, 0x3800, .reservedImplied0e false),
    (16, 0xbc00, .reservedImplied0f true)] = true := by decide

/-- One word for each implied opcode of the upper half of its map, written out by the format rule R73. -/
theorem test_decode_implied_high : readsAs [
    (16, 0x4000, .skp false),
    (16, 0xc400, .reservedImplied11 true),
    (16, 0x4800, .reservedImplied12 false),
    (16, 0xcc00, .reservedImplied13 true),
    (16, 0x5000, .reservedImplied14 false),
    (16, 0xd400, .reservedImplied15 true),
    (16, 0x5800, .reservedImplied16 false),
    (16, 0xdc00, .reservedImplied17 true),
    (16, 0x6000, .reservedImplied18 false),
    (16, 0xe400, .reservedImplied19 true),
    (16, 0x6800, .reservedImplied1a false),
    (16, 0xec00, .reservedImplied1b true),
    (16, 0x7000, .reservedImplied1c false),
    (16, 0xf400, .reservedImplied1d true),
    (16, 0x7800, .reservedImplied1e false),
    (16, 0xfc00, .reservedImplied1f true)] = true := by decide

/-- The vectors of section 2.1 that name a point of their own: HLT with v set, the next-word literal, the inline limits,
a literal b. -/
theorem test_decode_vectors : readsAs [
    (16, 0x0000, .hlt false), (16, 0x8000, .hlt true), (32, 0x00307c01, .set (.reg .a) (.literal 0x30)),
    (16, 0xfc21, .set (.reg .b) (.inline 30)), (16, 0x8021, .set (.reg .b) (.inline 0xffff)),
    (32, 0x123403e1, .set (.literal 0x1234) (.reg .a)), (16, 0x3dde, .sti (.ind .i) (.ind .j)),
    (48, 0x010000417ffc, .hww (.literal 0x0100) (.literal 0x41)), (16, 0x7c00, .reservedImplied1f false)]
    = true := by decide

/-- Bytes that end too early are refused by name. -/
theorem test_decode_refuses_short :
    (decode [] == .error .missingFirstWord) ∧ (decode [0xc1] == .error .missingFirstWord) ∧
      (decode [0xc1, 0x7f, 0x20, 0x00] == .error .missingNextWord) := by decide

/-- Lengths of R75's examples. -/
theorem test_lengths : [0x7fc1, 0x7c01, 0x7c20, 0x7c00, 0x4000].map instrLength = [3, 2, 2, 1, 1] := by decide

/-! ## Ill-formed terms -/

/-- An inline literal outside -1 to 30 is refused in an a field, and the two limits are not (R77). -/
theorem test_wellFormed_inline_range :
    (Instr.set (.reg .a) (.inline 31)).wellFormed = false ∧ (Instr.jsr (.inline 0xfffe)).wellFormed = false ∧
      (Instr.set (.reg .a) (.inline 30)).wellFormed = true ∧ (Instr.jsr (.inline 0xffff)).wellFormed = true := by
  decide

/-- An inline literal is refused in a b field, in range or not (R76). -/
theorem test_wellFormed_inline_b :
    (Instr.add (.inline 5) (.reg .a)).wellFormed = false ∧ (Instr.ife (.inline 31) (.reg .a)).wellFormed = false ∧
      (Instr.add (.literal 5) (.reg .a)).wellFormed = true := by decide

/-! ## Basic instructions (sections 2.2 to 2.6) -/

theorem test_set : alu .set 0 0x1234 0x5555 = some (0x1234, 0x5555) := by decide
theorem test_set_push_pop :
    (after (exec (.set .stack .stack) (load { r₀ with sp := 0x0100 } [(0x0100, 0x7777)]))).map
      (fun t => (t.sp, t.readWord 0x0100)) = some (0x0100, 0x7777) := by decide
theorem test_add_wraps : alu .add 0xffff 0x0001 0 = some (0x0000, 0x0001) := by decide
theorem test_add_ex_as_b :
    (after (exec (.add .ex (.inline 1)) { r₀ with ex := 5 })).map (·.ex) = some 0 := by decide
theorem test_sub_borrows : alu .sub 0x0005 0x0007 0 = some (0xfffe, 0xffff) := by decide
theorem test_mul : alu .mul 0xffff 0xffff 0 = some (0x0001, 0xfffe) := by decide
theorem test_mli : alu .mli 0x8000 0x7fff 0 = some (0x8000, 0xc000) := by decide
theorem test_mli_positive : alu .mli 0x8000 0x8000 0 = some (0x0000, 0x4000) := by decide
theorem test_div : alu .div 0x0001 0x0003 0 = some (0x0000, 0x5555) := by decide
theorem test_div_zero : alu .div 0x1234 0 0x9999 = some (0, 0) := by decide
theorem test_dvi : alu .dvi 0xfff9 0x0002 0 = some (0xfffd, 0x8000) := by decide
theorem test_dvi_overflow : alu .dvi 0x8000 0xffff 0x1111 = some (0x8000, 0x0000) := by decide
theorem test_mod : alu .mod 0xfff9 0x0010 0x9999 = some (0x0009, 0x9999) := by decide
theorem test_mdi : alu .mdi 0xfff9 0x0010 0x9999 = some (0xfff9, 0x9999) := by decide
theorem test_mdi_negative_divisor : alu .mdi 0x0007 0xfffd 0 = some (0x0001, 0) := by decide
theorem test_and : alu .and 0xf0f0 0xff00 7 = some (0xf000, 7) := by decide
theorem test_bor : alu .bor 0xf0f0 0x0f00 7 = some (0xfff0, 7) := by decide
theorem test_xor : alu .xor 0xffff 0x0ff0 7 = some (0xf00f, 7) := by decide
theorem test_shr : alu .shr 0x8421 0x0004 0 = some (0x0842, 0x1000) := by decide
theorem test_shr_seventeen : alu .shr 0x8421 0x0011 0 = some (0x0000, 0x4210) := by decide
theorem test_asr : alu .asr 0x8421 0x0014 0 = some (0xffff, 0xf842) := by decide
theorem test_asr_full : alu .asr 0x8421 0xffff 0 = some (0xffff, 0xffff) := by decide
theorem test_shl : alu .shl 0x8421 0x001f 0 = some (0x0000, 0x8000) := by decide
theorem test_shl_full : alu .shl 0x8421 0xffff 0 = some (0x0000, 0x0000) := by decide
theorem test_adx : alu .adx 0xffff 0xffff 0xffff = some (0xfffd, 0x0001) := by decide
theorem test_sbx : alu .sbx 0x0003 0x0001 0xffff = some (0x0001, 0x0001) := by decide
theorem test_sbx_underflow : alu .sbx 0x0005 0x0007 0x0000 = some (0xfffe, 0xffff) := by decide
theorem test_sti :
    (after (exec (.sti (.ind .i) (.ind .j)) (load ((r₀.setReg .i 0x1000).setReg .j 0x2000) [(0x2000, 0xbeef)]))).map
      (fun t => (t.readWord 0x1000, t.reg .i, t.reg .j)) = some (0xbeef, 0x1002, 0x2002) := by decide
theorem test_std_compatible :
    (after (exec (.std (.reg .a) (.inline 1)) { (r₀.setReg .i 5).setReg .j 9 with mode := .compatible })).map
      (fun t => (t.reg .a, t.reg .i, t.reg .j)) = some (1, 4, 8) := by decide
theorem test_ifb : (pcOfTest .ifb 0x00f0 0x0010, pcOfTest .ifb 0x00f0 0) = (some 2, some 4) := by decide
theorem test_ifc : (pcOfTest .ifc 0x00f0 0x0f00, pcOfTest .ifc 1 1) = (some 2, some 4) := by decide
theorem test_ife : (pcOfTest .ife 0 0, pcOfTest .ife 0 1) = (some 2, some 4) := by decide
theorem test_ifn : (pcOfTest .ifn 0x10 0x11, pcOfTest .ifn 0x10 0x10) = (some 2, some 4) := by decide
theorem test_ifg : (pcOfTest .ifg 0xffff 1, pcOfTest .ifg 5 5) = (some 2, some 4) := by decide
theorem test_ifa : (pcOfTest .ifa 0x7fff 0x8000, pcOfTest .ifa 0xffff 1) = (some 2, some 4) := by decide
theorem test_ifl : (pcOfTest .ifl 1 0xffff, pcOfTest .ifl 5 5) = (some 2, some 4) := by decide
theorem test_ifu : (pcOfTest .ifu 0x8000 0x7fff, pcOfTest .ifu 1 0xffff) = (some 2, some 4) := by decide
theorem test_skip_chain :
    (after (exec (.ife (.reg .a) (.inline 1)) (load r₀ [(2, 0x8c32), (4, 0x9041)]))).map (·.pc) = some 6 := by decide
theorem test_hww :
    (after (exec (.hww (.reg .b) (.reg .a)) { (r₀.setReg .a 0x41).setReg .b 0x100 with byt := .protectHigh })).map
      (fun t => (t.busLog, t.byt)) = some ([.ioWrite 0x0100 0x0041], .off) := by decide
theorem test_hwr :
    (after (exec (.hwr (.reg .a) (.inline 0x10)) r₀)).map (fun t => (t.busLog, t.pc))
      = some ([BusEvent.ioRead 0x0010], 2) := by decide
theorem test_hwr_answer (t : State) (h : exec (.hwr (.reg .a) (.inline 0x10)) r₀ = .next t) :
    t.reg .a = Config.ioRead 0 [] 0x0010 := by
  cases h
  rfl

/-! ## Special instructions (sections 2.7 and 2.8) -/

theorem test_jsr :
    (after (exec (.jsr (.literal 0x0100)) { r₀ with pc := 0x10 })).map (fun t => (t.sp, t.readWord 0xfffe, t.pc))
      = some (0xfffe, 0x0014, 0x0100) := by decide
theorem test_jsr_compatible :
    (after (exec (.jsr (.literal 0x0100)) { r₀ with pc := 0x10, mode := .compatible })).map
      (fun t => (t.sp, t.readWord 0xffff, t.pc)) = some (0xffff, 0x0012, 0x0100) := by decide
theorem test_bsr :
    (after (exec (.bsr (.literal 0xfffc)) { r₀ with pc := 0x10 })).map (fun t => (t.readWord 0xfffe, t.pc))
      = some (0x0014, 0x0010) := by decide
theorem test_neg : (onA .neg 5, onA .neg 0x8000, onA .neg 0) = (some 0xfffb, some 0x8000, some 0) := by decide
theorem test_neg_pop :
    (after (exec (.neg .stack) (load { r₀ with sp := 0x0100 } [(0x0100, 5)]))).map
      (fun t => (t.readWord 0x0100, t.sp)) = some (0xfffb, 0x0102) := by decide
theorem test_sxb : (onA .sxb 0x0080, onA .sxb 0xff7f) = (some 0xff80, some 0x007f) := by decide
theorem test_swp : onA .swp 0x1234 = some 0x3412 := by decide
theorem test_swp_masked :
    (after (exec (.swp (.reg .a)) { r₀.setReg .a 0x1234 with byt := .protectLow })).map (·.reg .a)
      = some 0x3434 := by decide
/-- Whatever the heater of the default platform does, HCR is written, the write recorded, BYT off (R206). -/
theorem test_hcf : ∃ t, exec (.hcf (.inline 7)) { r₀ with byt := .protectLow } = .next t ∧
    (t.hcr, t.busLog, t.byt) = (7, [.heater 7], .off) := by
  refine ⟨_, rfl, Prod.ext ?_ (Prod.ext ?_ rfl)⟩
  · exact (State.setHeater_keeps _ _).1
  · exact (State.setHeater_keeps _ _).2.2.2.1
/-- A platform that says what its heater does where HCR is set to 7 or 8 (D21). -/
def heated : State :=
  let hook : List (Word × List StateChange) :=
    [(7, [.octet 0x001000 0xaa, .octet 0x001001 0xbb, .reg .x 5, .pc 0x0100, .run .sleeping]),
     (8, [.octet 0x002000 1])]
  { r₀ with cfg := { Config.default with heaterHook := hook } }
theorem test_hcf_hook :
    (after (exec (.hcf (.inline 7)) heated)).map
      (fun t => ([t.readWord 0x1000, t.readWord 0x2000, t.reg .x, t.pc], t.run, t.busLog))
      = some ([0xbbaa, 0, 5, 0x0100], .sleeping, [.heater 7]) := by decide
theorem test_int : (after (exec (.int (.inline 5)) r₀)).map (fun t => (t.iq, t.pc)) = some ([5], 2) := by decide
theorem test_int_overflow :
    exec (.int (.inline 5)) { r₀ with iq := queueOf 256 } = .fault .queueOverflow :=
  int_of_full (queueOf_length 256) _
theorem test_iag :
    (after (exec (.iag (.reg .a)) { r₀.setReg .a 0xabcd with ia := 0x1234, byt := .protectHigh })).map (·.reg .a)
      = some 0xab34 := by decide
theorem test_ias : (after (exec (.ias (.literal 0x0200)) r₀)).map (·.ia) = some 0x0200 := by decide
theorem test_rfi_pop :
    (after (exec (.rfi .stack) (load { r₀ with sp := 0x0100, qf := true } [(0x100, 1), (0x102, 2), (0x104, 3)]))).map
      (fun t => (t.reg .a, t.pc, t.sp, t.qf)) = some (2, 3, 0x0106, false) := by decide
theorem test_iaq :
    ((after (exec (.iaq (.literal 0x8000)) r₀)).map (·.qf), (after (exec (.iaq (.inline 0)) r₀)).map (·.qf))
      = (some true, some false) := by decide
theorem test_mmw :
    (after (exec (.mmw (.literal 0x0452)) r₀)).map (fun t => (t.page 2, (t.lowAddr 0x2e30).toNat))
      = some (0x045, 0x045e30) := by decide
theorem test_mmr :
    (after (exec (.mmr (.reg .a)) ((r₀.setPage 2 0x045).setReg .a 0xabc2))).map (·.reg .a) = some 0x0450 := by decide
/-- The start of the OS vector call vectors. -/
def osStart : State :=
  { (r₀.setReg .a 0x1111).setReg .b 0x2222 with pc := 0x0100, sp := 0x8000, ova := 0x3000, ovm := 0x0453 }
theorem test_osq :
    (after (exec (.osq (.inline 7)) osStart)).map
      (fun t => ([t.readWord 0x7ffe, t.readWord 0x7ffc, t.readWord 0x7ffa, t.sp, t.ovm, t.reg .a, t.reg .b, t.pc],
        t.page 3)) = some ([0x0102, 0x1111, 0x2222, 0x7ffa, 0x0033, 7, 0x0011, 0x3000], 0x045) := by decide
theorem test_osn :
    (after (exec (.osn (.inline 7)) osStart)).map (fun t => (t.reg .b, t.pc)) = some (0x0010, 0x3000) := by decide
theorem test_osn_disabled :
    after (exec (.osn (.inline 7)) { osStart with ova := 0 }) = some { osStart with ova := 0, pc := 0x0102 } := by
  decide
theorem test_osi :
    (after (exec (.osi (.inline 7)) osStart)).map (fun t => (t.reg .b, t.pc)) = some (0x0012, 0x3000) := by decide
theorem test_osr :
    (after (exec (.osr (.inline 7)) osStart)).map (fun t => (t.reg .b, t.pc)) = some (0x0013, 0x3000) := by decide
theorem test_rfo :
    ((after (exec (.osq (.inline 7)) osStart)).bind fun t => after (exec (.rfo (.inline 0)) t)).map
      (fun t => ([t.sp, t.ovm, t.reg .a, t.reg .b, t.pc], t.page 3))
      = some ([0x8000, 0x0453, 0x1111, 0x2222, 0x0102], 0x003) := by decide
theorem test_omg : (after (exec (.omg (.reg .a)) osStart)).map (·.reg .a) = some 0x0453 := by decide
theorem test_oms : (after (exec (.oms (.reg .a)) osStart)).map (·.ovm) = some 0x1111 := by decide
theorem test_ovg : (after (exec (.ovg (.reg .a)) osStart)).map (·.reg .a) = some 0x3000 := by decide
theorem test_ovs : (after (exec (.ovs (.reg .a)) osStart)).map (·.ova) = some 0x1111 := by decide
theorem test_cme_to_compatible :
    (after (exec (.cme (.literal 0x5555)) { r₀ with pc := 0x100, sp := 0xfffe, ia := 0x200, ova := 0x1300 })).map
      (fun t => ([t.pc, t.sp, t.ia, t.ova], t.mode))
      = some ([0x0082, 0xffff, 0x0100, 0x8980], .compatible) := by decide
theorem test_cme_to_native :
    (after (exec (.cme (.literal 0xaaaa))
      { r₀ with pc := 0x82, sp := 0xffff, ia := 0x100, ova := 0x8980, mode := .compatible })).map
      (fun t => ([t.pc, t.sp, t.ia, t.ova], t.mode)) = some ([0x0108, 0xfffe, 0x0200, 0x1300], .native) := by decide

/-! ## Implied instructions (section 2.9) -/

theorem test_hlt : (after (exec (.hlt false) r₀)).map (fun t => (t.run, t.pc)) = some (.halted, 2) := by decide
theorem test_hlt_enabled :
    (after (exec (.hlt true) { r₀ with ia := 0x200 })).map (fun t => (t.run, t.iq)) = some (.running, [0]) := by decide
theorem test_slp : (after (exec (.slp false) r₀)).map (fun t => (t.run, t.pc)) = some (.sleeping, 2) := by decide
theorem test_sfr :
    (after (exec (.sfr false) { osStart with mode := .compatible, emu := Vector.replicate 16 7 })).map
      (fun t => (t.pc, t.sp, t.mode, t.page 15)) = some (0, 0, .native, 15) := by decide
/-- A platform with ROM in page 0, a device in page 1, RAM above them, and a reset that sets an octet. -/
def mapped : State :=
  let bus : PhysBus :=
    { regions := [⟨0x000000, 0x1000, .rom⟩, ⟨0x001000, 0x1000, .device⟩], onReset := [(0x003000, 0x77)] }
  { r₀ with cfg := { Config.default with physBus := bus } }
theorem test_sfr_hardware :
    (after (exec (.sfr false) (load mapped [(0x4000, 0x1234)]))).map
      (fun t => (t.readWord 0x3000, t.readWord 0x4000, t.busLog)) = some (0x0077, 0x1234, [.reset]) := by decide
theorem test_byt :
    ((after (exec (.byt true) r₀)).map (·.byt), (after (exec (.byt false) r₀)).map (·.byt))
      = (some .protectHigh, some .protectLow) := by decide
theorem test_byt_twice :
    (after (exec (.byt true) { r₀ with byt := .protectLow })).map (·.byt) = some .off := by decide
theorem test_skp :
    (after (exec (.skp false) (load r₀ [(2, 0x8812), (4, 0x9bc1), (6, 0x1000)]))).map (·.pc) = some 8 := by decide

/-! ## Operands, masks and memory (sections 2.2, 2.3 and 2.9) -/

theorem test_pc_as_a_before_b_next_word :
    (after (exec (.set (.absolute 0x1000) .pc) { r₀ with pc := 0x10 })).map (fun t => (t.readWord 0x1000, t.pc))
      = some (0x0012, 0x0014) := by decide
theorem test_address_wraps :
    (after (exec (.set (.reg .b) (.indNext .a 2)) (load (r₀.setReg .a 0xffff) [(1, 0xbeef)]))).map (·.reg .b)
      = some 0xbeef := by decide
theorem test_masked_store :
    (after (exec (.set (.absolute 0x1000) (.literal 0x1234))
      (load { r₀ with byt := .protectLow } [(0x1000, 0xabcd)]))).map (fun t => (t.readWord 0x1000, t.byt))
      = some (0x12cd, .off) := by decide
theorem test_masked_pc :
    (after (exec (.set .pc (.literal 0x1234)) { r₀ with pc := 2, byt := .protectLow })).map (·.pc)
      = some 0x1206 := by decide
/-- A word whose octets lie in ROM and in a device, then one in RAM: only RAM takes its octets without a transaction. -/
theorem test_store_by_region :
    ((mapped.writeWord 0x0fff 0x1234).busLog, (mapped.writeWord 0x2000 0xabcd).busLog,
      (mapped.writeWord 0x2000 0xabcd).mem) =
      ([.memWrite 0x000fff 0x34, .memWrite 0x001000 0x12], [], [(0x2000, 0xcd), (0x2001, 0xab)]) := by decide
/-- A device is read twice where both operands name it, and the second answer hangs on the first read (R105, R52). -/
theorem test_device_read_twice :
    (mapped.readB (.absolute 0x1800) (.absolute 0x1800)).busLog =
      [.memRead 0x001800, .memRead 0x001801, .memRead 0x001800, .memRead 0x001801] := by decide
theorem test_device_answers :
    lowOctet (mapped.valueA (.absolute 0x1800)) = Config.deviceOctet 0 [] 0x001800 ∧
      lowOctet (mapped.valueB (.absolute 0x1800) (.absolute 0x1800)) =
        Config.deviceOctet 0 [.memRead 0x001800, .memRead 0x001801] 0x001800 := by
  constructor <;> exact lowOctet_joinOctets _ _
/-- SET does not read b (R113), and an instruction in a device is read when it is fetched. -/
theorem test_device_set_and_fetch :
    ((after (exec (.set (.absolute 0x1800) (.inline 1)) mapped)).map (·.busLog),
      (after (exec (.slp false) { mapped with pc := 0x1ffe })).map (·.busLog)) =
      (some [.memWrite 0x001800 0x01, .memWrite 0x001801 0x00],
        some [.memRead 0x001ffe, .memRead 0x001fff]) := by decide
theorem test_word_across_blocks :
    let t := (r₀.setPage 1 0x200).writeWord 0x0fff 0x1234
    (t.octet 0x000fff, t.octet 0x200000) = (0x34, 0x12) := by decide
theorem test_word_at_top : (load r₀ [(0xffff, 0x3412)]).octet 0x000000 = 0x34 := by decide
theorem test_compatible_addresses :
    [0x0082, 0x1080, 0x891a, 0xffff].map (fun va => (({ r₀ with mode := .compatible } : State).lowAddr va).toNat)
      = [0x000104, 0x000100, 0x009234, 0x00fffe] := by decide
theorem test_memory_stays_canonical :
    (load r₀ [(0x2000, 0x1200), (0x1000, 0xabcd), (0x2000, 0), (0x1001, 0x00ff)]).mem
      = [(0x1000, 0xcd), (0x1001, 0xff)] := by decide

/-! ## The cycle (section 2.10) -/

theorem test_step_enters_interrupt :
    (after (step (load { r₀.setReg .a 0x9999 with pc := 2, ia := 0x200, iq := [5, 6] } [(0x200, 0x0041)]))).map
      (fun t => ([t.reg .c, t.readWord 0xfffe, t.readWord 0xfffc, t.sp, t.pc], t.qf, t.iq))
      = some ([5, 2, 0x9999, 0xfffc, 0x202], true, [6]) := by decide
theorem test_step_drops_interrupt :
    (after (step (load { r₀ with iq := [5] } [(0, 0x8821)]))).map (fun t => (t.iq, t.reg .b, t.qf))
      = some ([], 1, false) := by decide
theorem test_step_mask_holds_interrupt :
    (after (step (load { r₀ with ia := 0x200, inputs := [[.interrupt 9]], byt := .protectHigh }
      [(0, 0x7c21), (2, 0x1234)]))).map (fun t => (t.iq, t.reg .b, t.pc)) = some ([9], 0x0034, 4) := by decide
theorem test_step_sleep_wakes :
    (after (step (load { r₀ with pc := 6, ia := 0x40, run := .sleeping, inputs := [[.interrupt 0x42]] }
      [(0x40, 0x0041)]))).map (fun t => (t.reg .c, t.readWord 0xfffe, t.run)) = some (0x42, 6, .running) := by decide
theorem test_step_reset_after_interrupt :
    (after (step (load { r₀ with pc := 6, ia := 0x40, inputs := [[.interrupt 5, .store 0x000000 0x21, .reset]] }
      [(0, 0x8800)]))).map (fun t => (t.reg .b, t.iq, t.pc)) = some (1, [], 2) := by decide
theorem test_fetch_word :
    (after (step (r₀.withFetchWord 48 0x100000207fc1))).map (fun t => (t.readWord 0x1000, t.pc))
      = some (0x0020, 6) := by decide
theorem test_cycle_counts :
    [instrCycles (.set (.absolute 0x1000) (.literal 0x20)), instrCycles (.add (.reg .a) (.indNext .b 2)),
      (instrCycles (.ife (.reg .a) (.inline 1))).map (· + failedTestCycles 1)] = [some 4, some 3, some 4] := by decide
theorem test_unaligned_cycles :
    [unalignedCycles .native 1, unalignedCycles .native 2, unalignedCycles .compatible 1] = [1, 0, 0] := by decide

/-- No octet lies in a device where a check of each says so. -/
theorem noDevice_of_check {s : State} {l : List PAddr} (h : l.all (fun q => s.kindAt q != .device) = true) :
    noDevice s l := by
  intro q hq
  simpa using List.all_eq_true.1 h q hq

/-- All octets lie in RAM where a check of each says so. -/
theorem allRam_of_check {s : State} {l : List PAddr} (h : l.all (fun q => s.kindAt q == .ram) = true) :
    allRam s l := by
  intro q hq
  simpa using List.all_eq_true.1 h q hq

/-- On the default platform every address is RAM, and none is a device. -/
theorem kindAt_default {s : State} (h : s.cfg = Config.default) (q : PAddr) : s.kindAt q = .ram := by
  simp [State.kindAt, h, Config.default, kindIn]
theorem noDeviceMapped_default {s : State} (h : s.cfg = Config.default) : noDeviceMapped s := by
  intro q
  simp [kindAt_default h]

/-! ## Witnesses: each obligation's hypotheses are met together -/

theorem witness_DecodeOfEncode :
    (Instr.set (.absolute 0x1000) (.literal 0x20)).wellFormed = true ∧ (Instr.jsr (.inline 0xffff)).wellFormed = true ∧
      (Instr.jsr (.inline 30)).wellFormed = true ∧ (Instr.byt true).wellFormed = true := by decide
theorem witness_EncodeOfDecode :
    decode [0xc1, 0x7f, 0x20, 0x00, 0x00, 0x10, 0x55] = .ok (.set (.absolute 0x1000) (.literal 0x20), [0x55]) ∧
      2 * (instrLength 0x7fc1 - 1) ≤ ([0x20, 0x00, 0x00, 0x10] : List Byte).length ∧
      2 * (instrLength 0x0000 - 1) ≤ ([] : List Byte).length := ⟨rfl, by decide, by decide⟩
theorem witness_ReservedOpcodesFault :
    isReserved (.reservedBasic18 .stack .stack) = true ∧ isReserved (.reservedSpecial0d .pc) = true ∧
      isReserved (.reservedImplied1f true) = true := by decide
/-- The last word of ROM and the first of RAM beside a device. -/
theorem witness_OperandAResolves :
    noDevice mapped (wordOctets mapped 0x0ffe) ∧ noDevice mapped (wordOctets mapped 0x2000) :=
  ⟨noDevice_of_check (by decide), noDevice_of_check (by decide)⟩
theorem witness_OperandBResolves : noDevice mapped (wordOctets mapped 0x0000) := noDevice_of_check (by decide)
theorem witness_DirectOutputUnderMask :
    (∀ n, Place.mem 0x1000 ≠ .lit n) ∧ (∀ va, Place.mem 0x1000 = .mem va → ramWord r₀ va) ∧
      (∀ n, Place.sp ≠ .lit n) ∧ ∀ va, Place.sp = .mem va → ramWord r₀ va :=
  ⟨by simp, fun va h => by cases h; decide, by simp, by simp⟩
theorem witness_DirectOutputChangesOnlyItsPlace :
    Place.mem 0x1000 ≠ .reg .a ∧ Place.mem 0x1000 ≠ .sp ∧ Place.mem 0x1000 ≠ .pc ∧ Place.mem 0x1000 ≠ .ex ∧
      0x001002 ∉ storedOctets r₀ .off (.mem 0x1000) ∧ 0x001001 ∉ storedOctets r₀ .protectHigh (.mem 0x1000) ∧
      0x001000 ∉ storedOctets r₀ .protectLow (.mem 0x1000) := by decide
theorem witness_DirectOutputChangesOnlyItsPlace_allRam :
    allRam mapped (storedOctets mapped .protectLow (.mem 0x1fff)) ∧ allRam mapped (storedOctets mapped .off .sp) :=
  ⟨allRam_of_check (by decide), allRam_of_check (by decide)⟩
/-- Each kind of address at a limit of its region, and octets and cells apart from it. -/
theorem witness_PhysicalBusAccess :
    mapped.kindAt 0x002000 = .ram ∧ mapped.kindAt 0x000fff = .rom ∧ mapped.kindAt 0x001000 = .device ∧
      mapped.kindAt 0x001fff = .device ∧ mapped.kindAt 0x002000 ≠ .device ∧ r₀.cfg.physBus.regions = [] ∧
      (0x002001 : PAddr) ≠ 0x002000 ∧ (0x002000 : PAddr) ∉ [((0x002001 : PAddr), (1 : Byte))].map Prod.fst := by decide
theorem witness_NativeTranslation : r₀.mode = .native := rfl
theorem witness_WordsInMemory :
    ramWord r₀ 0xffff ∧ ramWord mapped 0x2000 ∧ 0x001002 ∉ wordOctets r₀ 0x1000 ∧ r₀.mode = .native ∧
      ({ r₀ with mode := .compatible } : State).mode = .compatible := by decide
theorem witness_WordsInMemory_noDevice : noDevice mapped (wordOctets mapped 0x0ffe) := noDevice_of_check (by decide)
theorem witness_AliasedBlocksShareWords :
    let n := (r₀.setPage 0 0x100).setPage 1 0x100
    let c : State := { (r₀.setPage 0 0x100).setPage 1 0x101 with mode := .compatible }
    ramWord n 0x0ffe ∧ ramWord c 0x0fff ∧
    (offsetOf 0x0ffe = offsetOf 0x1ffe ∧ n.mode = .native ∧ n.page (blockOf 0x0ffe) = n.page (blockOf 0x1ffe) ∧
      offsetOf 0x0ffe ≠ 0xfff) ∧
      offsetOf 0x0fff = offsetOf 0x1fff ∧ c.mode = .compatible ∧
        (c.page (blockOf 0x0fff)).toNat / 2 = (c.page (blockOf 0x1fff)).toNat / 2 := by decide
theorem witness_PushThenPop : ramWord r₀ (r₀.sp - r₀.wordStep) := by decide
theorem witness_SkipPassesOverAChain :
    let s := load r₀ [(0, 0x8812), (2, 0x8801)]
    (1 < skipFuel ∧
      (∀ k < 1, isConditionalWord ((State.pastInstr^[k] s).readWord (State.pastInstr^[k] s).pc) = true) ∧
      isConditionalWord ((State.pastInstr^[1] s).readWord (State.pastInstr^[1] s).pc) = false) ∧
      0 < skipFuel ∧ isConditionalWord ((State.pastInstr^[0] r₀).readWord (State.pastInstr^[0] r₀).pc) = false := by
  decide
theorem witness_SkipEndsUnlessEndless_noDeviceMapped : noDeviceMapped r₀ := noDeviceMapped_default rfl
theorem witness_DeviceTransferResults :
    (∃ t, exec (.hcf (.inline 7)) r₀ = .next t) ∧
      (∃ cs rest, heated.cfg.heaterHook = (heated.valueA (.inline 7), cs) :: rest) ∧ r₀.cfg.heaterHook = [] :=
  ⟨⟨_, rfl⟩, ⟨_, _, rfl⟩, rfl⟩
theorem witness_SkipEndsUnlessEndless :
    let s : State := { r₀ with skip := true, inputs := [[.interrupt 5], []] }
    (s.arrivals.map fun t => (t.skip, t.iq)) = some (true, [5]) ∧ nothingArrives r₀ ∧
      nothingArrives { r₀ with inputs := [[], [.reset]] } := by decide
theorem witness_StepRunsTheDecodedInstruction :
    let s := { load r₀ [(0, 0x0402)] with inputs := [[], [.reset]] }
    (nothingArrives s ∧ nothingArrives { s with inputs := [] } ∧ s.skip = false ∧ s.run = .running ∧ s.iq = []) ∧
      (({ s with iq := [1], qf := true } : State).qf = true ∧
        ({ s with iq := [1], byt := .protectLow } : State).byt ≠ .off) ∧
      decode (turned s).codeBytes = .ok (.add (.reg .a) (.reg .b), [0, 0, 0, 0]) :=
  ⟨by decide, by decide, rfl⟩
theorem witness_StepRunsTheDecodedInstruction_noDeviceMapped : noDeviceMapped r₀ := noDeviceMapped_default rfl
theorem witness_StepTakesTheOldestInterrupt :
    let s : State := { r₀ with ia := 0x200, iq := [5, 6], inputs := [[], [.interrupt 7]] }
    nothingArrives s ∧ nothingArrives { s with inputs := [] } ∧ s.skip = false ∧ s.run = .running ∧
      s.iq = 5 :: [6] ∧ s.qf = false ∧ s.byt = .off ∧ s.ia ≠ 0 ∧
      ({ s with ia := 0 } : State).ia = 0 := by decide
theorem witness_HaltedStaysHalted :
    let s : State := { r₀ with run := .halted, inputs := [[.interrupt 1, .interrupt 2]] }
    s.run = .halted ∧ s.skip = false ∧ s.inputs.headD [] = ([1, 2] : List Word).map .interrupt ∧
      ({ s with inputs := [] } : State).inputs.headD [] = ([] : List Word).map .interrupt := by decide
theorem witness_SleepEndsByAnInterrupt :
    let s : State := { r₀ with run := .sleeping }
    (nothingArrives s ∧ nothingArrives { s with inputs := [[], [.reset]] } ∧ s.skip = false ∧
        s.run = .sleeping ∧ s.byt = .off ∧ s.iq = []) ∧
      ({ s with iq := [5], qf := true } : State).qf = true ∧
      (({ s with iq := [5] } : State).iq = 5 :: [] ∧ s.qf = false ∧ s.ia = 0) ∧
      ({ s with iq := [5], ia := 0x200 } : State).ia ≠ 0 := by decide
theorem witness_ArrivingInterruptsAreQueued :
    let s : State := { r₀ with iq := queueOf 255, inputs := [[.interrupt 7]] }
    let f : State := { r₀ with iq := queueOf 256, inputs := [[.interrupt 7]] }
    (s.inputs = ([7] : List Word).map .interrupt :: [] ∧ s.run ≠ .halted ∧ ([7] : List Word) ≠ [] ∧
      s.iq.length + ([7] : List Word).length ≤ 256) ∧
      f.inputs = ([7] : List Word).map .interrupt :: [] ∧ f.run ≠ .halted ∧
        ¬ f.iq.length + ([7] : List Word).length ≤ 256 := by
  simp [r₀, State.reset, State.powerOn, queueOf_length]
/-- Interrupts and a reset at one boundary: each event of the list is first in turn. -/
theorem witness_ArrivingInterruptsAreQueued_events :
    let s : State := { r₀ with inputs := [[.interrupt 5, .reset, .store 0x001000 1], [.reset]] }
    s.inputs = (.interrupt 5 :: [.reset, .store 0x001000 1]) :: [[.reset]] ∧
      ({ s with run := .halted } : State).run = .halted ∧ s.iq.length < 256 ∧
      ({ s with inputs := [[.reset, .store 0x001000 1]] } : State).inputs = (.reset :: [.store 0x001000 1]) :: [] ∧
      ({ s with inputs := [[.store 0x001000 1]] } : State).inputs = (.store 0x001000 1 :: []) :: [] := by decide
theorem witness_SoftwareInterrupt :
    ({ r₀ with iq := queueOf 255 } : State).iq.length < 256 ∧ 256 ≤ ({ r₀ with iq := queueOf 256 } : State).iq.length := by
  simp [queueOf_length]
theorem witness_HaltResult :
    let e : State := { r₀ with ia := 1, iq := queueOf 255 }
    let f : State := { r₀ with ia := 0xffff, iq := queueOf 256 }
    r₀.ia = 0 ∧ (e.ia ≠ 0 ∧ e.iq.length < 256) ∧ f.ia ≠ 0 ∧ 256 ≤ f.iq.length := by
  simp [r₀, State.reset, State.powerOn, queueOf_length]
theorem witness_PlatformReset :
    ({ r₀ with run := .halted, inputs := [[.reset]] } : State).inputs.headD [] = [.reset] := rfl
theorem witness_BasicOutputFrame :
    let s := load r₀ [(0, 0x2222)]
    Instr.add (.absolute 0x1000) (.reg .a) ∈ [.set (.absolute 0x1000) (.reg .a), .add (.absolute 0x1000) (.reg .a)] ∧
      (after (exec (.add (.absolute 0x1000) (.reg .a)) s)).isSome = true ∧
      s.placeB (.absolute 0x1000) (.reg .a) ≠ .reg .b ∧ s.placeB (.absolute 0x1000) (.reg .a) ≠ .sp ∧
      s.placeB (.absolute 0x1000) (.reg .a) ≠ .pc ∧ s.placeB (.absolute 0x1000) (.reg .a) ≠ .ex ∧
      writesEx (.set (.absolute 0x1000) (.reg .a)) = false ∧
      0x000fff ∉ storedOctets s s.byt (s.placeB (.absolute 0x1000) (.reg .a)) := by decide
theorem witness_BasicOutputFrame_allRam :
    allRam r₀ (storedOctets r₀ r₀.byt (r₀.placeB (.absolute 0x1000) (.reg .a))) ∧ noDeviceMapped r₀ ∧
      r₀.kindAt 0x000fff ≠ .device :=
  ⟨allRam_of_check (by decide), noDeviceMapped_default rfl, by decide⟩
theorem witness_StepAndReadFrame :
    (after (exec (.sti .stack (.reg .c)) r₀)).isSome = true ∧ r₀.placeB .stack (.reg .c) ≠ .reg .i ∧
      Reg.a ≠ .i ∧ Reg.a ≠ .j ∧ r₀.placeB .stack (.reg .c) ≠ .sp ∧ r₀.placeB .stack (.reg .c) ≠ .pc ∧
      r₀.placeB .stack (.reg .c) ≠ .ex ∧ 0x00fffd ∉ storedOctets r₀ r₀.byt (r₀.placeB .stack (.reg .c)) ∧
      Instr.hwr .stack (.reg .c) ∈ [.sti .stack (.reg .c), .std .stack (.reg .c), .hwr .stack (.reg .c)] := by decide
theorem witness_StepAndReadFrame_allRam :
    allRam r₀ (storedOctets r₀ r₀.byt (r₀.placeB .stack (.reg .c))) ∧ noDeviceMapped r₀ ∧
      r₀.kindAt 0x00fffd ≠ .device :=
  ⟨allRam_of_check (by decide), noDeviceMapped_default rfl, by decide⟩
theorem witness_SpecialOutputFrame_allRam :
    allRam r₀ (storedOctets r₀ r₀.byt (r₀.placeA .stack)) ∧ noDeviceMapped r₀ ∧ r₀.kindAt 0x000002 ≠ .device :=
  ⟨allRam_of_check (by decide), noDeviceMapped_default rfl, by decide⟩
theorem witness_SpecialOutputFrame :
    (after (exec (.neg .stack) r₀)).isSome = true ∧ r₀.placeA .stack ≠ .reg .a ∧ r₀.placeA .stack ≠ .sp ∧
      r₀.placeA .stack ≠ .pc ∧ r₀.placeA .stack ≠ .ex ∧ 0x000002 ∉ storedOctets r₀ r₀.byt (r₀.placeA .stack) ∧
      Instr.neg .stack ∈ [.neg .stack, .sxb .stack] := by decide
theorem witness_MemoryOutsideStoresIsKept :
    (storesNothing (.hcf (.inline 7)) = true ∧ (after (exec (.hcf (.inline 7)) heated)).isSome = true ∧
      0x001002 ∉ platformStores heated (.hcf (.inline 7))) ∧
      (storesNothing (.sfr true) = true ∧ (after (exec (.sfr true) mapped)).isSome = true ∧
        0x003001 ∉ platformStores mapped (.sfr true)) ∧
      ((after (exec (.jsr (.inline 4)) r₀)).isSome = true ∧
        0x00fffd ∉ wordOctets r₀ (below r₀ (spAfterA r₀ (.inline 4)) 1)) ∧
      (after (exec (.osn (.inline 4)) osStart)).isSome = true ∧
        0x008000 ∉ wordOctets osStart (below osStart (spAfterA osStart (.inline 4)) 1) ∧
        0x008000 ∉ wordOctets osStart (below osStart (spAfterA osStart (.inline 4)) 2) ∧
        0x008000 ∉ wordOctets osStart (below osStart (spAfterA osStart (.inline 4)) 3) := by decide
theorem witness_MemoryOutsideStoresIsKept_allRam :
    allRam r₀ (wordOctets r₀ (below r₀ (spAfterA r₀ (.inline 4)) 1)) ∧ r₀.kindAt 0x00fffd ≠ .device ∧
      mapped.kindAt 0x003001 ≠ .device ∧ osStart.kindAt 0x008000 ≠ .device ∧
      allRam osStart (wordOctets osStart (below osStart (spAfterA osStart (.inline 4)) 1)) ∧
      allRam osStart (wordOctets osStart (below osStart (spAfterA osStart (.inline 4)) 2)) ∧
      allRam osStart (wordOctets osStart (below osStart (spAfterA osStart (.inline 4)) 3)) ∧ r₀.ova = 0 :=
  ⟨allRam_of_check (by decide), by decide, by decide, by decide, allRam_of_check (by decide),
    allRam_of_check (by decide), allRam_of_check (by decide), rfl⟩
theorem witness_SystemStateChangesOnlyByItsInstructions :
    let i := Instr.set (.reg .a) (.reg .b)
    (after (exec i r₀)).isSome = true ∧ (∀ q, r₀.kindAt q = .ram) ∧
      [mayChangeMode i, mayChangeIa i, mayChangeOva i, mayChangeOvm i, mayChangeEmu i, mayChangeQueue i, mayChangeQf i,
        mayChangeRun i, mayChangeHcr i, mayTransfer i] = List.replicate 10 false :=
  ⟨by decide, kindAt_default rfl, by decide⟩
theorem witness_ExChangesOnlyWhereNamed :
    let i := Instr.mod (.reg .a) (.reg .b)
    (after (exec i r₀)).isSome = true ∧ writesEx i = false ∧ namesEx i = false ∧ (∀ v, i ≠ .sfr v) ∧ ∀ a, i ≠ .hcf a :=
  ⟨by decide, by decide, by decide, by decide, by simp⟩
theorem witness_MaskLastsOneInstruction :
    ((after (exec (.hlt false) { r₀ with byt := .protectLow })).isSome = true ∧ isConditional (.hlt false) = false ∧
      ∀ v, Instr.hlt false ≠ .byt v) ∧
      ((after (exec (.ife .sp .sp) { r₀ with byt := .protectLow })).isSome = true ∧
        isConditional (.ife .sp .sp) = true ∧ passes { r₀ with byt := .protectLow } (.ife .sp .sp) = true) ∧
      (after (exec (.ifu .sp .sp) { r₀ with byt := .protectLow })).isSome = true ∧
        isConditional (.ifu .sp .sp) = true ∧ passes { r₀ with byt := .protectLow } (.ifu .sp .sp) = false := by decide
theorem witness_FaultsOnlyWhereTheSpecStops :
    exec (.reservedSpecial03 .sp) r₀ = .fault .reservedOpcode ∧
      exec (.int (.inline 5)) { r₀ with iq := queueOf 256 } = .fault .queueOverflow :=
  ⟨rfl, test_int_overflow⟩
theorem witness_AtMostOneMessageLeaves :
    let s := load { r₀ with iq := [5, 6], inputs := [[], [.interrupt 7]] } [(0, 0x8821)]
    let f := load { r₀ with iq := [5, 6] } [(0, 0x0800)]
    (nothingArrives s ∧ (after (step s)).isSome = true) ∧ nothingArrives f ∧
      (after (step f)).map (·.iq) = some [] := by decide
/-- Two words are apart where a check of their octets says so. -/
theorem apart_of_check {s : State} {x y : Word}
    (h : (wordOctets s x).all (fun q => !(wordOctets s y).contains q) = true) : apart s x y := by
  intro q hq
  simpa using List.all_eq_true.1 h q hq

theorem witness_ReturnUndoesInterruptEntry :
    let t := osStart.interruptEntry 7
    ramWord osStart (below osStart osStart.sp 1) ∧ ramWord osStart (below osStart osStart.sp 2) ∧
    (Operand.inline 0 ≠ .stack ∧ apart osStart (below osStart osStart.sp 1) (below osStart osStart.sp 2)) ∧
      (t.cfg = t.cfg ∧ t.mode = t.mode ∧ t.emu = t.emu ∧ t.sp = t.sp) ∧
      ∀ q ∈ wordOctets osStart (below osStart osStart.sp 1) ++ wordOctets osStart (below osStart osStart.sp 2),
        t.octet q = t.octet q :=
  ⟨by decide, by decide, ⟨by decide, apart_of_check (by decide)⟩, ⟨rfl, rfl, rfl, rfl⟩, fun _ _ => rfl⟩
theorem witness_ReturnUndoesOsVectorCall :
    let t := osStart.osVectorCall 0x10 7
    (Operand.inline 0 ≠ .stack ∧ osStart.ova ≠ 0 ∧ ramWord osStart (below osStart osStart.sp 1) ∧
      ramWord osStart (below osStart osStart.sp 2) ∧ ramWord osStart (below osStart osStart.sp 3)) ∧
      apart osStart (below osStart osStart.sp 1) (below osStart osStart.sp 2) ∧
      apart osStart (below osStart osStart.sp 1) (below osStart osStart.sp 3) ∧
      apart osStart (below osStart osStart.sp 2) (below osStart osStart.sp 3) ∧
      (t.cfg = t.cfg ∧ t.mode = t.mode ∧ t.emu = t.emu ∧ t.ovm = t.ovm ∧ t.sp = t.sp) ∧
      ∀ q ∈ wordOctets osStart (below osStart osStart.sp 1) ++ wordOctets osStart (below osStart osStart.sp 2) ++
        wordOctets osStart (below osStart osStart.sp 3), t.octet q = t.octet q :=
  ⟨by decide, apart_of_check (by decide), apart_of_check (by decide), apart_of_check (by decide),
    ⟨rfl, rfl, rfl, rfl, rfl⟩, fun _ _ => rfl⟩
theorem witness_StepKeepsInvariant :
    let s := load { r₀ with ia := 0x200, iq := [5, 6] } [(0x200, 0x0041)]
    Inv s ∧ (after (step s)).isSome = true := by decide
/-- A step of a running CPU that performs SET, and an idle one of a halted CPU. -/
theorem witness_StepKeepsInvariant_halted :
    let s := load r₀ [(0, 0x8801)]
    let h : State := { r₀ with run := .halted }
    (HaltedDisabled s ∧ (after (step s)).isSome = true ∧
        ∀ u a, s.boundary = .perform u → u.fetchInstr ≠ .hcf a) ∧
      HaltedDisabled h ∧ (after (step h)).isSome = true := by
  refine ⟨⟨by decide, by decide, fun u a h => ?_⟩, by decide, by decide⟩
  have hb : (load r₀ [(0, 0x8801)]).boundary = .perform (load r₀ [(0, 0x8801)]).beginTurn := by decide
  have hf : (load r₀ [(0, 0x8801)]).beginTurn.fetchInstr = .set (.reg .a) (.inline 1) := by decide
  rw [hb] at h
  cases h
  rw [hf]
  exact Instr.noConfusion
theorem witness_ResetMeetsInvariant : Memory.wf [(0x000000, 1), (0xffffff, 0xff)] := by decide

end Sys2Proof.Tests
end

section
/-! SUPPORT. Who may change the system state (spec/10_state.md section 9): the part of the state that operands and outputs
never touch, what each operation of the model makes of it, and what each instruction can make of it. -/

namespace Sys2Proof.Machine

open Sys2Proof.Safety

/-! ## The system part of a state -/

/-- The pieces of the state that `sameSystem` compares. -/
structure System where
  ia : Word
  ova : Word
  ovm : Word
  emu : Vector Page 16
  mode : Mode
  iq : List Word
  qf : Bool
  skip : Bool
  run : RunState
  hcr : Word
  cfg : Config
  inputs : List (List PlatformEvent)
  turns : Nat

/-- The system part of a state. -/
def State.system (s : State) : System :=
  { ia := s.ia, ova := s.ova, ovm := s.ovm, emu := s.emu, mode := s.mode, iq := s.iq, qf := s.qf, skip := s.skip
    run := s.run, hcr := s.hcr, cfg := s.cfg, inputs := s.inputs, turns := s.turns }

theorem sameSystem_iff (s t : State) : sameSystem s t ↔ t.system = s.system := by
  simp [sameSystem, State.system]

section
variable (s : State)

@[simp] theorem State.system_ia : s.system.ia = s.ia := rfl
@[simp] theorem State.system_ova : s.system.ova = s.ova := rfl
@[simp] theorem State.system_ovm : s.system.ovm = s.ovm := rfl
@[simp] theorem State.system_emu : s.system.emu = s.emu := rfl
@[simp] theorem State.system_mode : s.system.mode = s.mode := rfl
@[simp] theorem State.system_iq : s.system.iq = s.iq := rfl
@[simp] theorem State.system_qf : s.system.qf = s.qf := rfl
@[simp] theorem State.system_skip : s.system.skip = s.skip := rfl
@[simp] theorem State.system_run : s.system.run = s.run := rfl
@[simp] theorem State.system_hcr : s.system.hcr = s.hcr := rfl
@[simp] theorem State.system_cfg : s.system.cfg = s.cfg := rfl
@[simp] theorem State.system_inputs : s.system.inputs = s.inputs := rfl
@[simp] theorem State.system_turns : s.system.turns = s.turns := rfl

/-! ## What an update makes of it -/

@[simp] theorem State.setReg_system (r : Reg) (v : Word) : (s.setReg r v).system = s.system := rfl
@[simp] theorem State.setPc_system (v : Word) : (s.setPc v).system = s.system := rfl
@[simp] theorem State.setSp_system (v : Word) : (s.setSp v).system = s.system := rfl
@[simp] theorem State.setEx_system (v : Word) : (s.setEx v).system = s.system := rfl
@[simp] theorem State.setByt_system (m : ByteMask) : (s.setByt m).system = s.system := rfl
@[simp] theorem State.endInstr_system : s.endInstr.system = s.system := rfl
@[simp] theorem State.logBus_system (e : BusEvent) : (s.logBus e).system = s.system := rfl
@[simp] theorem State.ioWrite_system (port v : Word) : (s.ioWrite port v).system = s.system := rfl
@[simp] theorem State.ioRead_system (port : Word) : (s.ioRead port).2.system = s.system := rfl
@[simp] theorem State.noteRead_system (l : List PAddr) : (s.noteRead l).system = s.system := rfl
@[simp] theorem State.pastWord_system : s.pastWord.system = s.system := rfl
@[simp] theorem State.push_system (v : Word) : (s.push v).system = s.system := rfl
@[simp] theorem State.pop_system : s.pop.2.system = s.system := rfl
@[simp] theorem State.stepIJ_system (d : Word) : (s.stepIJ d).system = s.system := rfl

@[simp] theorem State.setIa_system (v : Word) : (s.setIa v).system = { s.system with ia := v } := rfl
@[simp] theorem State.setOva_system (v : Word) : (s.setOva v).system = { s.system with ova := v } := rfl
@[simp] theorem State.setOvm_system (v : Word) : (s.setOvm v).system = { s.system with ovm := v } := rfl
@[simp] theorem State.setPage_system (b : Block) (p : Page) :
    (s.setPage b p).system = { s.system with emu := s.system.emu.set b.toFin p } := rfl
@[simp] theorem State.setMode_system (m : Mode) : (s.setMode m).system = { s.system with mode := m } := rfl
@[simp] theorem State.setIq_system (q : List Word) : (s.setIq q).system = { s.system with iq := q } := rfl
@[simp] theorem State.setQf_system (b : Bool) : (s.setQf b).system = { s.system with qf := b } := rfl
@[simp] theorem State.setRun_system (r : RunState) : (s.setRun r).system = { s.system with run := r } := rfl

/-! ## What operands, outputs and skips make of it -/

@[simp] theorem State.afterA_system (a : Operand) : (s.afterA a).system = s.system := by
  obtain ⟨pc, sp, log, h⟩ := s.afterA_frame a
  rw [h]
  rfl

@[simp] theorem State.readA_system (a : Operand) : (s.readA a).system = s.system := by
  obtain ⟨pc, sp, log, h⟩ := s.readA_frame a
  rw [h]
  rfl

@[simp] theorem State.afterB_system (b a : Operand) : (s.afterB b a).system = s.system := by
  obtain ⟨pc, sp, log, h⟩ := s.afterB_frame b a
  rw [h]
  rfl

@[simp] theorem State.readB_system (b a : Operand) : (s.readB b a).system = s.system := by
  obtain ⟨pc, sp, log, h⟩ := s.readB_frame b a
  rw [h]
  rfl

@[simp] theorem State.writeOp_system (mask : ByteMask) (p : Place) (v : Word) :
    (s.writeOp mask p v).system = s.system := by
  simp [State.system]

@[simp] theorem State.moveOp_system (b a : Operand) : (s.moveOp b a).system = s.system := by
  simp [State.moveOp]

@[simp] theorem State.basicOp_system (res : Word → Word → Word) (b a : Operand) :
    (s.basicOp res b a).system = s.system := by
  simp [State.basicOp]

@[simp] theorem State.basicOpEx_system (res ex : Word → Word → Word) (b a : Operand) :
    (s.basicOpEx res ex b a).system = s.system := by
  simp [State.basicOpEx]

@[simp] theorem State.specialReadWrite_system (v : Word) (a : Operand) :
    (s.specialReadWrite v a).system = s.system := by
  simp [State.specialReadWrite]

@[simp] theorem State.specialWrite_system (v : Word) (a : Operand) : (s.specialWrite v a).system = s.system := by
  simp [State.specialWrite]

/-- A skip can change the skipping flag and nothing else of the system part (R178). -/
theorem State.skipChain_system : ∃ b, s.skipChain.system = { s.system with skip := b } := by
  obtain ⟨pc, skip, byt, log, h⟩ := s.skipChain_frame
  exact ⟨skip, by rw [h]; rfl⟩

theorem State.conditionalOp_system (test : Word → Word → Bool) (b a : Operand) :
    ∃ k, (s.conditionalOp test b a).system = { s.system with skip := k } := by
  unfold State.conditionalOp
  split
  · exact ⟨s.skip, s.readB_system b a⟩
  · simpa using (s.readB b a).skipChain_system

/-! ## What calls, returns and the mode switch make of it -/

theorem State.interruptReturn_system : s.interruptReturn.system = { s.system with qf := false } := rfl

theorem State.osVectorReturn_system :
    ∃ emu ovm, s.osVectorReturn.system = { s.system with emu := emu, ovm := ovm } := ⟨_, _, rfl⟩

theorem State.osVectorCall_system (n m : Word) :
    ∃ emu ovm, (s.osVectorCall n m).system = { s.system with emu := emu, ovm := ovm } := by
  by_cases h : s.ova = 0
  · exact ⟨s.emu, s.ovm, by rw [State.osVectorCall_of_eq_zero h]; rfl⟩
  · exact ⟨_, _, by rw [State.osVectorCall_of_ne_zero h]; rfl⟩

theorem State.switchMode_system (key : Word) :
    ∃ mode ia ova, (s.switchMode key).system = { s.system with mode := mode, ia := ia, ova := ova } := by
  unfold State.switchMode
  split
  · exact ⟨_, _, _, rfl⟩
  · split <;> exact ⟨_, _, _, rfl⟩

end

/-! ## Queuing -/

/-- An instruction that queues a message answers a next state where the queue has room (R304, R306). -/
theorem finishEnqueue_eq_next {s t : State} {m : Word} (h : finishEnqueue (s.enqueue m) = .next t) :
    s.iq.length < Config.queueCapacity ∧ t = (s.setIq (s.iq ++ [m])).endInstr := by
  cases hq : s.enqueue m with
  | none => rw [hq] at h; cases h
  | some u =>
    obtain ⟨hroom, rfl⟩ := State.enqueue_eq_some.1 hq
    rw [hq] at h
    cases h
    exact ⟨hroom, rfl⟩

/-- HLT queues message 0 where interrupts are enabled, and halts where they are not (R260). -/
theorem execHlt_eq_next {s t : State} {v : Bool} (h : execHlt v s = .next t) :
    s.ia ≠ 0 ∧ s.iq.length < Config.queueCapacity ∧ t = (s.pastWord.setIq (s.iq ++ [0])).endInstr ∨
      s.ia = 0 ∧ t = (s.pastWord.setRun .halted).endInstr := by
  unfold execHlt at h
  split at h
  · exact .inl ⟨‹_›, finishEnqueue_eq_next h⟩
  · cases h
    exact .inr ⟨not_not.1 ‹_›, rfl⟩

/-! ## What an instruction can make of the system part -/

/-- The system part an instruction can leave, from the one it found: the table of readers and writers of
10_state.md section 9, with what the heater by HCF cannot touch (D21). -/
inductive SystemChange (σ : System) : Instr → System → Prop
  | kept (i : Instr) : SystemChange σ i σ
  | skips (i : Instr) (b : Bool) (hi : isConditional i = true ∨ ∃ v, i = .skp v) :
      SystemChange σ i { σ with skip := b }
  | setsIa (a : Operand) (v : Word) : SystemChange σ (.ias a) { σ with ia := v }
  | setsOva (a : Operand) (v : Word) : SystemChange σ (.ovs a) { σ with ova := v }
  | setsOvm (a : Operand) (v : Word) : SystemChange σ (.oms a) { σ with ovm := v }
  | setsPage (a : Operand) (b : Block) (p : Page) : SystemChange σ (.mmw a) { σ with emu := σ.emu.set b.toFin p }
  | setsQf (a : Operand) (b : Bool) : SystemChange σ (.iaq a) { σ with qf := b }
  | returns (a : Operand) : SystemChange σ (.rfi a) { σ with qf := false }
  | exchanges (i : Instr) (a : Operand) (hi : i ∈ [.osn a, .osq a, .osi a, .osr a, .rfo a])
      (emu : Vector Page 16) (ovm : Word) : SystemChange σ i { σ with emu := emu, ovm := ovm }
  | switches (a : Operand) (mode : Mode) (ia ova : Word) :
      SystemChange σ (.cme a) { σ with mode := mode, ia := ia, ova := ova }
  | queues (i : Instr) (hi : (∃ a, i = .int a) ∨ ∃ v, i = .hlt v) (m : Word)
      (hroom : σ.iq.length < Config.queueCapacity) : SystemChange σ i { σ with iq := σ.iq ++ [m] }
  | halts (v : Bool) (hia : σ.ia = 0) : SystemChange σ (.hlt v) { σ with run := .halted }
  | sleeps (v : Bool) : SystemChange σ (.slp v) { σ with run := .sleeping }
  | resets (v : Bool) :
      SystemChange σ (.sfr v)
        { State.reset.system with emu := σ.cfg.emuReset, cfg := σ.cfg, inputs := σ.inputs, turns := σ.turns }
  | heats (a : Operand) (τ : System) (hskip : τ.skip = σ.skip) (hcfg : τ.cfg = σ.cfg)
      (hinputs : τ.inputs = σ.inputs) (hturns : τ.turns = σ.turns)
      (hiq : σ.iq.length ≤ Config.queueCapacity → τ.iq.length ≤ Config.queueCapacity) :
      SystemChange σ (.hcf a) τ

theorem SystemChange.of_eq {i : Instr} {σ τ : System} (h : τ = σ) : SystemChange σ i τ :=
  h ▸ .kept i

theorem conditionalOp_systemChange {i : Instr} (hi : isConditional i = true) (s : State)
    (test : Word → Word → Bool) (b a : Operand) : SystemChange s.system i (s.conditionalOp test b a).system := by
  obtain ⟨k, h⟩ := s.conditionalOp_system test b a
  rw [h]
  exact .skips i k (.inl hi)

theorem osVectorCall_systemChange {i : Instr} {a : Operand} (hi : i ∈ [.osn a, .osq a, .osi a, .osr a, .rfo a])
    (s : State) (n m : Word) : SystemChange s.system i ((s.readA a).osVectorCall n m).endInstr.system := by
  obtain ⟨emu, ovm, h⟩ := (s.readA a).osVectorCall_system n m
  rw [State.endInstr_system, h, State.readA_system]
  exact .exchanges i a hi emu ovm

/-- What an instruction that answers a next state can have done to the system part. -/
theorem exec_systemChange {i : Instr} {s t : State} (h : exec i s = .next t) : SystemChange s.system i t.system := by
  cases i with
  | ifb b a | ifc b a | ife b a | ifn b a | ifg b a | ifa b a | ifl b a | ifu b a =>
    cases h
    exact conditionalOp_systemChange rfl s _ b a
  | skp v =>
    cases h
    obtain ⟨k, hk⟩ := s.pastWord.skipChain_system
    rw [State.endInstr_system, hk]
    exact .skips _ k (.inr ⟨v, rfl⟩)
  | ias a => cases h; simpa using SystemChange.setsIa (σ := s.system) a (s.valueA a)
  | ovs a => cases h; simpa using SystemChange.setsOva (σ := s.system) a (s.valueA a)
  | oms a => cases h; simpa using SystemChange.setsOvm (σ := s.system) a (s.valueA a)
  | mmw a => cases h; simpa using SystemChange.setsPage (σ := s.system) a _ _
  | iaq a => cases h; simpa using SystemChange.setsQf (σ := s.system) a (s.valueA a != 0)
  | rfi a =>
    cases h
    rw [State.endInstr_system, State.interruptReturn_system, State.readA_system]
    exact .returns a
  | osn a | osq a | osi a | osr a =>
    cases h
    exact osVectorCall_systemChange (by simp) s _ _
  | rfo a =>
    cases h
    obtain ⟨emu, ovm, hr⟩ := (s.readA a).osVectorReturn_system
    rw [State.endInstr_system, hr, State.readA_system]
    exact .exchanges _ a (by simp) emu ovm
  | cme a =>
    cases h
    obtain ⟨mode, ia, ova, hm⟩ := (s.readA a).switchMode_system (s.valueA a)
    rw [State.endInstr_system, hm, State.readA_system]
    exact .switches a mode ia ova
  | int a =>
    have hiq : (s.readA a).iq = s.iq := congrArg System.iq (s.readA_system a)
    obtain ⟨hroom, rfl⟩ := finishEnqueue_eq_next h
    rw [State.endInstr_system, State.setIq_system, State.readA_system, hiq]
    rw [hiq] at hroom
    exact .queues _ (.inl ⟨a, rfl⟩) _ hroom
  | hlt v =>
    rcases execHlt_eq_next (v := v) h with ⟨-, hroom, rfl⟩ | ⟨hia, rfl⟩
    · exact .queues _ (.inr ⟨v, rfl⟩) 0 hroom
    · exact .halts v hia
  | slp v => cases h; exact .sleeps v
  | sfr v => cases h; exact .resets v
  | hcf a =>
    cases h
    obtain ⟨-, -, hskip, -, hcfg, hinputs, hturns, -, hiq⟩ := (s.readA a).setHeater_keeps (s.valueA a)
    rw [← s.readA_system a]
    exact .heats a _ hskip hcfg hinputs hturns hiq
  | jsr a | bsr a => cases h; exact .of_eq (by simp)
  | hww b a | hwr b a => cases h; exact .of_eq (by simp)
  | set b a => cases h; exact .of_eq (s.moveOp_system b a)
  | sti b a | std b a => cases h; exact .of_eq (s.moveOp_system b a)
  | mod b a | mdi b a | and b a | bor b a | xor b a => cases h; exact .of_eq (s.basicOp_system _ b a)
  | add b a | sub b a | mul b a | mli b a | div b a | dvi b a | shr b a | asr b a | shl b a | adx b a | sbx b a =>
    cases h
    exact .of_eq (s.basicOpEx_system _ _ b a)
  | neg a | sxb a | swp a | mmr a => cases h; exact .of_eq (s.specialReadWrite_system _ a)
  | iag a | omg a | ovg a => cases h; exact .of_eq (s.specialWrite_system _ a)
  | byt v => cases h; exact .of_eq s.pastWord_system
  | _ => cases h

end Sys2Proof.Machine
end

section
/-! SUPPORT. What the operations and the instructions do on the memory bus: memory keeps its canonical form, the record of
transactions only grows, and with RAM everywhere only a transfer with a device adds to it (R52, R190; logs 19 and 20). -/

namespace Sys2Proof.Machine

open Sys2Proof.Safety

/-- `t` comes after `s` by accesses to the memory bus and, where `transfers` is set, by transfers with devices. -/
structure BusAccess (transfers : Bool) (s t : State) : Prop where
  cfg : t.cfg = s.cfg
  wf : s.mem.wf → t.mem.wf
  grows : s.busLog <+: t.busLog
  quiet : transfers = false → (∀ q, s.kindAt q = .ram) → t.busLog = s.busLog

/-! ## Composition -/

section
variable {x : Bool} {s t u : State}

theorem BusAccess.of_eq (hc : t.cfg = s.cfg) (hm : t.mem = s.mem) (hb : t.busLog = s.busLog) : BusAccess x s t :=
  ⟨hc, fun h => hm ▸ h, hb ▸ List.prefix_refl _, fun _ _ => hb⟩

theorem BusAccess.refl (s : State) : BusAccess x s s :=
  .of_eq rfl rfl rfl

theorem BusAccess.trans (h : BusAccess x s t) (k : BusAccess x t u) : BusAccess x s u where
  cfg := k.cfg.trans h.cfg
  wf hs := k.wf (h.wf hs)
  grows := h.grows.trans k.grows
  quiet hx hs :=
    have ht : ∀ q, t.kindAt q = .ram := fun q => by rw [State.kindAt, h.cfg]; exact hs q
    (k.quiet hx ht).trans (h.quiet hx hs)

/-- An update of a field that is neither memory, the record nor the platform's is no access to the bus. -/
theorem BusAccess.congr (h : BusAccess x s t) (hc : u.cfg = t.cfg) (hm : u.mem = t.mem) (hb : u.busLog = t.busLog) :
    BusAccess x s u :=
  h.trans (.of_eq hc hm hb)

end

/-! ## The operations -/

section
variable {x : Bool} (s : State)

theorem State.noteRead_busAccess (l : List PAddr) : BusAccess x s (s.noteRead l) where
  cfg := rfl
  wf := id
  grows := List.prefix_append _ _
  quiet _ hs := by rw [State.noteRead_of_not_device fun q _ => by simp [hs q]]

theorem State.setOctet_busAccess (p : PAddr) (v : Byte) : BusAccess x s (s.setOctet p v) where
  cfg := rfl
  wf h := State.mem_wf_setOctet h p v
  grows := s.busLog_setOctet_prefix p v
  quiet _ hs := by rw [State.setOctet_busLog, if_pos (hs p)]

theorem State.pastWord_busAccess : BusAccess x s s.pastWord :=
  (s.noteRead_busAccess (s.wordAddrs s.pc)).congr rfl rfl rfl

theorem State.pastInstr_busAccess : BusAccess x s s.pastInstr :=
  (s.noteRead_busAccess (s.wordAddrs s.pc)).congr rfl rfl rfl

theorem State.writeWord_busAccess (va v : Word) : BusAccess x s (s.writeWord va v) :=
  (s.setOctet_busAccess _ _).trans (State.setOctet_busAccess _ _ _)

theorem State.push_busAccess (v : Word) : BusAccess x s (s.push v) :=
  (BusAccess.of_eq rfl rfl rfl : BusAccess x s (s.setSp (s.sp - s.wordStep))).trans
    (State.writeWord_busAccess _ _ v)

theorem State.pop_busAccess : BusAccess x s s.pop.2 :=
  (s.noteRead_busAccess (s.wordAddrs s.sp)).congr rfl rfl rfl

/-- Resolving an operand is at most the fetch of its next word, besides what code 0x18 does in its field. -/
theorem State.resolveWith_busAccess {stack : Place × State} (h : BusAccess x s stack.2) (o : Operand) :
    BusAccess x s (s.resolveWith stack o).2 := by
  cases o with
  | stack => exact h
  | indNext r n | pick n | absolute n | literal n => exact s.pastWord_busAccess
  | _ => exact .refl s

theorem State.resolveA_busAccess (a : Operand) : BusAccess x s (s.resolveA a).2 :=
  s.resolveWith_busAccess (.of_eq rfl rfl rfl) a

theorem State.resolveB_busAccess (b : Operand) : BusAccess x s (s.resolveB b).2 :=
  s.resolveWith_busAccess (.of_eq rfl rfl rfl) b

theorem State.afterA_busAccess (a : Operand) : BusAccess x s (s.afterA a) :=
  s.pastWord_busAccess.trans (State.resolveA_busAccess _ a)

theorem State.readA_busAccess (a : Operand) : BusAccess x s (s.readA a) :=
  (s.afterA_busAccess a).trans (State.noteRead_busAccess _ _)

theorem State.afterB_busAccess (b a : Operand) : BusAccess x s (s.afterB b a) :=
  (s.readA_busAccess a).trans (State.resolveB_busAccess _ b)

theorem State.readB_busAccess (b a : Operand) : BusAccess x s (s.readB b a) :=
  (s.afterB_busAccess b a).trans (State.noteRead_busAccess _ _)

theorem State.writeOp_busAccess (mask : ByteMask) (p : Place) (v : Word) : BusAccess x s (s.writeOp mask p v) := by
  cases p with
  | mem va =>
    cases mask with
    | off => exact s.writeWord_busAccess va v
    | protectHigh | protectLow => exact s.setOctet_busAccess _ _
  | _ => exact .of_eq rfl rfl rfl

theorem skipLoop_busAccess (fuel : Nat) : BusAccess x s (skipLoop fuel s) := by
  induction fuel generalizing s with
  | zero => exact .of_eq rfl rfl rfl
  | succ n ih =>
    unfold skipLoop
    split
    · exact s.pastInstr_busAccess.trans (ih s.pastInstr)
    · exact s.pastInstr_busAccess.congr rfl rfl rfl

theorem State.skipChain_busAccess : BusAccess x s s.skipChain :=
  skipLoop_busAccess s skipFuel

/-! ## The shapes of R101 -/

theorem State.moveOp_busAccess (b a : Operand) : BusAccess x s (s.moveOp b a) :=
  ((s.afterB_busAccess b a).trans (State.writeOp_busAccess _ _ _ _)).congr rfl rfl rfl

theorem State.basicOp_busAccess (res : Word → Word → Word) (b a : Operand) : BusAccess x s (s.basicOp res b a) :=
  ((s.readB_busAccess b a).trans (State.writeOp_busAccess _ _ _ _)).congr rfl rfl rfl

theorem State.basicOpEx_busAccess (res ex : Word → Word → Word) (b a : Operand) :
    BusAccess x s (s.basicOpEx res ex b a) :=
  ((s.readB_busAccess b a).trans (State.writeOp_busAccess _ _ _ _)).congr rfl rfl rfl

theorem State.conditionalOp_busAccess (test : Word → Word → Bool) (b a : Operand) :
    BusAccess x s (s.conditionalOp test b a) := by
  unfold State.conditionalOp
  split
  · exact s.readB_busAccess b a
  · exact (s.readB_busAccess b a).trans (State.skipChain_busAccess _)

theorem State.specialReadWrite_busAccess (v : Word) (a : Operand) : BusAccess x s (s.specialReadWrite v a) :=
  ((s.readA_busAccess a).trans (State.writeOp_busAccess _ _ _ _)).congr rfl rfl rfl

theorem State.specialWrite_busAccess (v : Word) (a : Operand) : BusAccess x s (s.specialWrite v a) :=
  ((s.afterA_busAccess a).trans (State.writeOp_busAccess _ _ _ _)).congr rfl rfl rfl

/-! ## Interrupts, calls, returns and the mode switch -/

theorem State.interruptEntry_busAccess (m : Word) : BusAccess x s (s.interruptEntry m) := by
  rw [State.interruptEntry_eq]
  exact ((s.push_busAccess s.pc).trans (State.push_busAccess _ (s.reg .a))).congr rfl rfl rfl

theorem State.setReg_pop_busAccess (r : Reg) : BusAccess x s (s.pop.2.setReg r s.pop.1) :=
  s.pop_busAccess.congr rfl rfl rfl

theorem State.setPc_pop_busAccess : BusAccess x s (s.pop.2.setPc s.pop.1) :=
  s.pop_busAccess.congr rfl rfl rfl

theorem State.interruptReturn_busAccess : BusAccess x s s.interruptReturn := by
  have hqf : BusAccess x s (s.setQf false) := .of_eq rfl rfl rfl
  exact hqf.trans ((State.setReg_pop_busAccess _ .a).trans (State.setPc_pop_busAccess _))

theorem State.osVectorCall_busAccess (n m : Word) : BusAccess x s (s.osVectorCall n m) := by
  by_cases h : s.ova = 0
  · rw [State.osVectorCall_of_eq_zero h]
    exact .refl s
  · rw [State.osVectorCall_of_ne_zero h]
    exact ((s.push_busAccess _).trans ((State.push_busAccess _ _).trans (State.push_busAccess _ _))).congr
      rfl rfl rfl

theorem State.osVectorReturn_busAccess : BusAccess x s s.osVectorReturn := by
  have hpage : BusAccess x s s.exchangePage := .of_eq rfl rfl rfl
  exact hpage.trans ((State.setReg_pop_busAccess _ .b).trans
    ((State.setReg_pop_busAccess _ .a).trans (State.setPc_pop_busAccess _)))

theorem State.switchMode_busAccess (key : Word) : BusAccess x s (s.switchMode key) := by
  unfold State.switchMode
  split
  · exact .of_eq rfl rfl rfl
  · split <;> exact .of_eq rfl rfl rfl

/-! ## Transfers with devices -/

theorem State.logBus_busAccess (e : BusEvent) : BusAccess true s (s.logBus e) where
  cfg := rfl
  wf := id
  grows := List.prefix_append _ _
  quiet hx := nomatch hx

theorem State.setHeater_busAccess (v : Word) : BusAccess true s (s.setHeater v) :=
  have ⟨_, _, _, hlog, hcfg, _, _, hwf, _⟩ := s.setHeater_keeps v
  { cfg := hcfg, wf := hwf, grows := hlog ▸ List.prefix_append _ _, quiet := nofun }

theorem State.resetAll_busAccess : BusAccess true s s.resetAll where
  cfg := rfl
  wf h := Memory.wf_writeAll h _
  grows := List.prefix_append _ _
  quiet hx := nomatch hx

end

/-! ## The instructions -/

/-- Every instruction that answers a next state only accesses the memory bus, but for the four that transfer with a
device. -/
theorem exec_busAccess {i : Instr} {s t : State} (h : exec i s = .next t) : BusAccess (mayTransfer i) s t := by
  cases i with
  | set b a => cases h; exact s.moveOp_busAccess b a
  | sti b a | std b a => cases h; exact (s.moveOp_busAccess b a).congr rfl rfl rfl
  | mod b a | mdi b a | and b a | bor b a | xor b a => cases h; exact s.basicOp_busAccess _ b a
  | add b a | sub b a | mul b a | mli b a | div b a | dvi b a | shr b a | asr b a | shl b a | adx b a | sbx b a =>
    cases h
    exact s.basicOpEx_busAccess _ _ b a
  | ifb b a | ifc b a | ife b a | ifn b a | ifg b a | ifa b a | ifl b a | ifu b a =>
    cases h
    exact s.conditionalOp_busAccess _ b a
  | hww b a =>
    cases h
    exact ((s.readB_busAccess b a).trans (State.logBus_busAccess _ _)).congr rfl rfl rfl
  | hwr b a =>
    cases h
    exact ((s.afterB_busAccess b a).trans ((State.logBus_busAccess _ _).trans
      (State.writeOp_busAccess _ _ _ _))).congr rfl rfl rfl
  | jsr a | bsr a =>
    cases h
    exact ((s.readA_busAccess a).trans (State.push_busAccess _ _)).congr rfl rfl rfl
  | neg a | sxb a | swp a | mmr a => cases h; exact s.specialReadWrite_busAccess _ a
  | iag a | omg a | ovg a => cases h; exact s.specialWrite_busAccess _ a
  | ias a | iaq a | mmw a | oms a | ovs a => cases h; exact (s.readA_busAccess a).congr rfl rfl rfl
  | hcf a =>
    cases h
    exact ((s.readA_busAccess a).trans (State.setHeater_busAccess _ _)).congr rfl rfl rfl
  | int a =>
    obtain ⟨-, rfl⟩ := finishEnqueue_eq_next h
    exact (s.readA_busAccess a).congr rfl rfl rfl
  | rfi a =>
    cases h
    exact ((s.readA_busAccess a).trans (State.interruptReturn_busAccess _)).congr rfl rfl rfl
  | osn a | osq a | osi a | osr a =>
    cases h
    exact ((s.readA_busAccess a).trans (State.osVectorCall_busAccess _ _ _)).congr rfl rfl rfl
  | rfo a =>
    cases h
    exact ((s.readA_busAccess a).trans (State.osVectorReturn_busAccess _)).congr rfl rfl rfl
  | cme a =>
    cases h
    exact ((s.readA_busAccess a).trans (State.switchMode_busAccess _ _)).congr rfl rfl rfl
  | hlt v =>
    rcases execHlt_eq_next (v := v) h with ⟨-, -, rfl⟩ | ⟨-, rfl⟩
    · exact s.pastWord_busAccess.congr rfl rfl rfl
    · exact s.pastWord_busAccess.congr rfl rfl rfl
  | slp v | byt v => cases h; exact s.pastWord_busAccess.congr rfl rfl rfl
  | sfr v => cases h; exact s.pastWord_busAccess.trans (State.resetAll_busAccess _)
  | skp v => cases h; exact (s.pastWord_busAccess.trans (State.skipChain_busAccess _)).congr rfl rfl rfl
  | _ => cases h

end Sys2Proof.Machine
end

section
/-! SUPPORT. What leaves EX alone: handling operands, a direct output to another place, the stack, skipping, calls,
returns and the mode switch (R13, R161). -/

namespace Sys2Proof.Machine

open Sys2Proof.Safety

/-! ## The place EX -/

/-- An operand resolves to EX where it is EX itself, whatever code 0x18 is in its field. -/
theorem State.resolveWith_fst_eq_ex {s : State} {stack : Place × State} (hstack : stack.1 ≠ .ex) (o : Operand) :
    (s.resolveWith stack o).1 = .ex ↔ o = .ex := by
  cases o with
  | stack => simpa [State.resolveWith] using hstack
  | _ => simp [State.resolveWith]

theorem State.placeA_eq_ex {s : State} {a : Operand} : s.placeA a = .ex ↔ a = .ex :=
  State.resolveWith_fst_eq_ex (by simp) a

theorem State.placeB_eq_ex {s : State} {b a : Operand} : s.placeB b a = .ex ↔ b = .ex :=
  State.resolveWith_fst_eq_ex (by simp) b

/-! ## The operations -/

section
variable (s : State)

@[simp] theorem State.endInstr_ex : s.endInstr.ex = s.ex := rfl

@[simp] theorem State.afterA_ex (a : Operand) : (s.afterA a).ex = s.ex := by
  obtain ⟨pc, sp, log, h⟩ := s.afterA_frame a
  rw [h]

@[simp] theorem State.readA_ex (a : Operand) : (s.readA a).ex = s.ex := by
  obtain ⟨pc, sp, log, h⟩ := s.readA_frame a
  rw [h]

@[simp] theorem State.afterB_ex (b a : Operand) : (s.afterB b a).ex = s.ex := by
  obtain ⟨pc, sp, log, h⟩ := s.afterB_frame b a
  rw [h]

@[simp] theorem State.readB_ex (b a : Operand) : (s.readB b a).ex = s.ex := by
  obtain ⟨pc, sp, log, h⟩ := s.readB_frame b a
  rw [h]

@[simp] theorem State.push_ex (v : Word) : (s.push v).ex = s.ex := rfl

@[simp] theorem State.interruptReturn_ex : s.interruptReturn.ex = s.ex := rfl

@[simp] theorem State.osVectorReturn_ex : s.osVectorReturn.ex = s.ex := rfl

@[simp] theorem State.osVectorCall_ex (n m : Word) : (s.osVectorCall n m).ex = s.ex := by
  by_cases h : s.ova = 0
  · rw [State.osVectorCall_of_eq_zero h]
  · rw [State.osVectorCall_of_ne_zero h]
    rfl

@[simp] theorem State.switchMode_ex (key : Word) : (s.switchMode key).ex = s.ex := by
  unfold State.switchMode
  split
  · rfl
  · split <;> rfl

@[simp] theorem State.skipChain_ex : s.skipChain.ex = s.ex := by
  obtain ⟨pc, skip, byt, log, h⟩ := s.skipChain_frame
  rw [h]

@[simp] theorem State.conditionalOp_ex (test : Word → Word → Bool) (b a : Operand) :
    (s.conditionalOp test b a).ex = s.ex := by
  unfold State.conditionalOp
  split <;> simp

/-! ## Direct outputs to a place other than EX -/

variable {s}

theorem State.writeOp_ex {p : Place} (hp : p ≠ .ex) (mask : ByteMask) (v : Word) :
    (s.writeOp mask p v).ex = s.ex := by
  cases p with
  | ex => exact absurd rfl hp
  | mem va => exact s.writeMasked_ex mask v va
  | _ => rfl

theorem State.moveOp_ex {b : Operand} (hb : b ≠ .ex) (a : Operand) : (s.moveOp b a).ex = s.ex :=
  (State.writeOp_ex (mt State.placeB_eq_ex.1 hb) _ _).trans (s.afterB_ex b a)

theorem State.basicOp_ex {b : Operand} (hb : b ≠ .ex) (res : Word → Word → Word) (a : Operand) :
    (s.basicOp res b a).ex = s.ex :=
  (State.writeOp_ex (mt State.placeB_eq_ex.1 hb) _ _).trans (s.readB_ex b a)

theorem State.specialReadWrite_ex {a : Operand} (ha : a ≠ .ex) (v : Word) : (s.specialReadWrite v a).ex = s.ex :=
  (State.writeOp_ex (mt State.placeA_eq_ex.1 ha) _ _).trans (s.readA_ex a)

theorem State.specialWrite_ex {a : Operand} (ha : a ≠ .ex) (v : Word) : (s.specialWrite v a).ex = s.ex :=
  (State.writeOp_ex (mt State.placeA_eq_ex.1 ha) _ _).trans (s.afterA_ex a)

end

/-! ## The instructions -/

theorem ne_ex_of_namesEx_basic {b a : Operand} (h : (b == .ex || a == .ex) = false) : b ≠ .ex := by
  obtain ⟨hb, -⟩ := Bool.or_eq_false_iff.1 h
  exact ne_of_beq_false hb

/-- An instruction that answers a next state leaves EX alone, unless EX is an output of it, an operand of it or the
platform's to change. -/
theorem exec_ex {i : Instr} {s t : State} (h : exec i s = .next t) (hw : writesEx i = false) (hn : namesEx i = false)
    (hsfr : ∀ v, i ≠ .sfr v) (hhcf : ∀ a, i ≠ .hcf a) : t.ex = s.ex := by
  cases i with
  | set b a => cases h; exact State.moveOp_ex (ne_ex_of_namesEx_basic hn) a
  | sti b a | std b a =>
    cases h
    exact State.moveOp_ex (ne_ex_of_namesEx_basic hn) a
  | mod b a | mdi b a | and b a | bor b a | xor b a => cases h; exact State.basicOp_ex (ne_ex_of_namesEx_basic hn) _ a
  | add b a | sub b a | mul b a | mli b a | div b a | dvi b a | shr b a | asr b a | shl b a | adx b a | sbx b a =>
    cases hw
  | hwr b a =>
    cases h
    have hb : s.placeB b a ≠ .ex := mt State.placeB_eq_ex.1 (ne_ex_of_namesEx_basic hn)
    exact (State.writeOp_ex hb _ _).trans (s.afterB_ex b a)
  | neg a | sxb a | swp a | mmr a => cases h; exact State.specialReadWrite_ex (ne_of_beq_false hn) _
  | iag a | omg a | ovg a => cases h; exact State.specialWrite_ex (ne_of_beq_false hn) _
  | ifb b a | ifc b a | ife b a | ifn b a | ifg b a | ifa b a | ifl b a | ifu b a =>
    cases h
    exact s.conditionalOp_ex _ b a
  | hww b a => cases h; exact s.readB_ex b a
  | jsr a | bsr a | ias a | iaq a | mmw a | oms a | ovs a => cases h; exact s.readA_ex a
  | osn a | osq a | osi a | osr a => cases h; simp
  | rfi a | rfo a | cme a => cases h; simp
  | int a =>
    obtain ⟨-, rfl⟩ := finishEnqueue_eq_next h
    exact s.readA_ex a
  | hlt v => rcases execHlt_eq_next (v := v) h with ⟨-, -, rfl⟩ | ⟨-, rfl⟩ <;> rfl
  | slp v | byt v => cases h; rfl
  | skp v => cases h; exact s.pastWord.skipChain_ex
  | sfr v => exact absurd rfl (hsfr v)
  | hcf a => exact absurd rfl (hhcf a)
  | _ => cases h

end Sys2Proof.Machine
end

section
/-! The rules of the whole machine about the state of 10_state.md: what an instruction may change (O51, O52) and what
every step keeps (O58). -/

namespace Sys2Proof.Machine

open Sys2Proof.Safety

/-! ## What a change of the system part keeps -/

section
variable {i : Instr} {σ τ : System}

/-- Each piece changes by the instructions of its list only (10_state.md section 9). -/
theorem SystemChange.keeps (h : SystemChange σ i τ) :
    (mayChangeMode i = false → τ.mode = σ.mode) ∧ (mayChangeIa i = false → τ.ia = σ.ia) ∧
      (mayChangeOva i = false → τ.ova = σ.ova) ∧ (mayChangeOvm i = false → τ.ovm = σ.ovm) ∧
      (mayChangeEmu i = false → τ.emu = σ.emu) ∧ (mayChangeQueue i = false → τ.iq = σ.iq) ∧
      (mayChangeQf i = false → τ.qf = σ.qf) ∧ (mayChangeRun i = false → τ.run = σ.run) ∧
      (mayChangeHcr i = false → τ.hcr = σ.hcr) := by
  cases h with
  | exchanges i a hi emu ovm =>
    simp only [List.mem_cons, List.not_mem_nil, or_false] at hi
    rcases hi with rfl | rfl | rfl | rfl | rfl <;> simp [mayChangeOvm, mayChangeEmu]
  | queues i hi m hroom => rcases hi with ⟨a, rfl⟩ | ⟨v, rfl⟩ <;> simp [mayChangeQueue]
  | kept | skips => simp
  | switches => simp [mayChangeMode, mayChangeIa, mayChangeOva]
  | setsIa => simp [mayChangeIa]
  | setsOva => simp [mayChangeOva]
  | setsOvm => simp [mayChangeOvm]
  | setsPage => simp [mayChangeEmu]
  | setsQf | returns => simp [mayChangeQf]
  | halts | sleeps => simp [mayChangeRun]
  | resets | heats =>
    simp [mayChangeMode, mayChangeIa, mayChangeOva, mayChangeOvm, mayChangeEmu, mayChangeQueue, mayChangeQf,
      mayChangeRun, mayChangeHcr]

/-- No instruction changes the platform's parameters, its coming events or the count of turns. -/
theorem SystemChange.platform (h : SystemChange σ i τ) :
    τ.cfg = σ.cfg ∧ τ.inputs = σ.inputs ∧ τ.turns = σ.turns := by
  cases h with
  | heats a τ hskip hcfg hinputs hturns hiq => exact ⟨hcfg, hinputs, hturns⟩
  | _ => exact ⟨rfl, rfl, rfl⟩

/-- The queue stays within its capacity (R306). -/
theorem SystemChange.iq_length_le (h : SystemChange σ i τ) (hσ : σ.iq.length ≤ Config.queueCapacity) :
    τ.iq.length ≤ Config.queueCapacity := by
  cases h with
  | queues i hi m hroom => simpa using hroom
  | resets v => exact Nat.zero_le _
  | heats a τ hskip hcfg hinputs hturns hiq => exact hiq hσ
  | _ => exact hσ

/-- An instruction that stops a running CPU is none that skips (R260, R262, R206). -/
theorem SystemChange.skip_of_not_running (h : SystemChange σ i τ) (hσ : σ.run = .running) (hτ : τ.run ≠ .running) :
    τ.skip = σ.skip := by
  cases h with
  | skips i b hi => exact absurd hσ hτ
  | resets v => exact absurd rfl hτ
  | heats a τ hskip hcfg hinputs hturns hiq => exact hskip
  | _ => rfl

/-- But for HCF, only HLT halts a running CPU, and only with interrupts not enabled (R260). -/
theorem SystemChange.ia_of_halted (h : SystemChange σ i τ) (hi : ∀ a, i ≠ .hcf a) (hσ : σ.run = .running)
    (hτ : τ.run = .halted) : τ.ia = 0 := by
  cases h with
  | halts v hia => exact hia
  | sleeps v | resets v => cases hτ
  | heats a τ hskip hcfg hinputs hturns hiq => exact absurd rfl (hi a)
  | _ => exact absurd (hσ.symm.trans hτ) nofun

end

/-- Settles O51: the system part changes as `exec_systemChange` says, the record of transactions as `exec_busAccess`
says. -/
theorem systemStateChangesOnlyByItsInstructions : Obligations.SystemStateChangesOnlyByItsInstructions := by
  intro i s t h
  obtain ⟨hmode, hia, hova, hovm, hemu, hiq, hqf, hrun, hhcr⟩ := (exec_systemChange h).keeps
  obtain ⟨hcfg, hinputs, hturns⟩ := (exec_systemChange h).platform
  have hbus := exec_busAccess h
  exact ⟨hmode, hia, hova, hovm, hemu, hiq, hqf, hrun, hhcr, hbus.quiet, hbus.grows, hcfg, hinputs, hturns⟩

/-- Settles O52. -/
theorem exChangesOnlyWhereNamed : Obligations.ExChangesOnlyWhereNamed :=
  fun _ _ _ => exec_ex

/-! ## Arrivals -/

/-- What every single event keeps, the events of a boundary keep. -/
theorem State.acceptAll_induction {P : State → Prop} (hP : ∀ s e t, P s → s.accept e = some t → P t)
    {s t : State} {es : List PlatformEvent} (hs : P s) (h : s.acceptAll es = some t) : P t := by
  induction es generalizing s with
  | nil =>
    cases h
    exact hs
  | cons e es ih =>
    unfold State.acceptAll at h
    split at h
    · exact ih (hP _ _ _ hs ‹_›) h
    · cases h

/-- What an event can do: reset the machine, set an octet of memory, or bring a message, which a halted CPU ignores and
any other queues (R350, U8, R261, R303). -/
theorem State.accept_cases {s t : State} {e : PlatformEvent} (h : s.accept e = some t) :
    t = s.resetAll ∨ (∃ p v, t = s.storeOctets [(p, v)]) ∨ t = s ∨
      ∃ m, s.iq.length < Config.queueCapacity ∧ t = s.setIq (s.iq ++ [m]) := by
  cases e with
  | reset => cases h; exact .inl rfl
  | store p v => cases h; exact .inr (.inl ⟨p, v, rfl⟩)
  | interrupt m =>
    simp only [State.accept] at h
    split at h
    · cases h; exact .inr (.inr (.inl rfl))
    · exact .inr (.inr (.inr ⟨m, State.enqueue_eq_some.1 h⟩))

theorem inv_resetAll {s : State} (hs : Inv s) : Inv s.resetAll :=
  ⟨Memory.wf_writeAll hs.1 _, Nat.zero_le _, fun h => absurd rfl h⟩

theorem accept_inv (s : State) (e : PlatformEvent) (t : State) (hs : Inv s) (h : s.accept e = some t) : Inv t := by
  obtain ⟨hmem, hiq, hrun⟩ := hs
  rcases State.accept_cases h with rfl | ⟨p, v, rfl⟩ | rfl | ⟨m, hroom, rfl⟩
  · exact inv_resetAll ⟨hmem, hiq, hrun⟩
  · exact ⟨Memory.wf_writeAll hmem _, hiq, hrun⟩
  · exact ⟨hmem, hiq, hrun⟩
  · exact ⟨hmem, by simpa using hroom, hrun⟩

theorem accept_haltedDisabled (s : State) (e : PlatformEvent) (t : State) (hs : HaltedDisabled s)
    (h : s.accept e = some t) : HaltedDisabled t := by
  rcases State.accept_cases h with rfl | ⟨p, v, rfl⟩ | rfl | ⟨m, -, rfl⟩
  · exact fun _ => rfl
  · exact hs
  · exact hs
  · exact hs

theorem arrivals_inv {s t : State} (hs : Inv s) (h : s.arrivals = some t) : Inv t :=
  State.acceptAll_induction accept_inv (s := s.beginTurn) hs h

theorem arrivals_haltedDisabled {s t : State} (hs : HaltedDisabled s) (h : s.arrivals = some t) : HaltedDisabled t :=
  State.acceptAll_induction accept_haltedDisabled (s := s.beginTurn) hs h

/-! ## The boundary -/

/-- What an idle boundary comes to once the events arrived: a skip goes on, a CPU that is not running stays as it is, or
a sleeping one drops its oldest message (R178, R261, R263). -/
theorem boundary_eq_idle {s u : State} (h : s.boundary = .idle u) :
    ∃ t, s.arrivals = some t ∧
      (t.skip = true ∧ u = t.skipChain ∨ u = t ∨ t.run = .sleeping ∧ ∃ m rest, t.iq = m :: rest ∧ u = t.setIq rest) := by
  unfold State.boundary at h
  split at h
  · cases h
  · rename_i t ht
    refine ⟨t, ht, ?_⟩
    split at h
    · cases h
      exact .inl ⟨‹_›, rfl⟩
    · split at h
      · cases h
        exact .inr (.inl rfl)
      · rename_i hrun
        unfold State.sleepBoundary at h
        split at h
        · cases h
          exact .inr (.inl rfl)
        · rename_i m rest hq
          split at h
          · cases h
            exact .inr (.inl rfl)
          · split at h
            · cases h
            · cases h
              exact .inr (.inr ⟨hrun, m, rest, hq, rfl⟩)
      · cases h

theorem State.setRun_eq_self {s : State} {r : RunState} (h : s.run = r) : s.setRun r = s := by
  subst h
  rfl

/-- Where an instruction is performed nothing is being skipped, and the CPU runs or wakes, and then a message may be
delivered (R100, R263). -/
theorem boundary_eq_perform {s u : State} (h : s.boundary = .perform u) :
    ∃ t, s.arrivals = some t ∧ t.skip = false ∧ u = (t.setRun .running).deliver := by
  unfold State.boundary at h
  split at h
  · cases h
  · rename_i t ht
    refine ⟨t, ht, ?_⟩
    split at h
    · cases h
    · rename_i hskip
      refine ⟨eq_false_of_ne_true hskip, ?_⟩
      split at h
      · cases h
      · unfold State.sleepBoundary at h
        split at h
        · cases h
        · split at h
          · cases h
          · split at h
            · cases h
              rfl
            · cases h
      · rename_i hrun
        rw [State.setRun_eq_self hrun]
        cases h
        rfl

/-- Delivery leaves the run state and the skipping flag alone. -/
theorem State.deliver_run_skip (s : State) : s.deliver.run = s.run ∧ s.deliver.skip = s.skip := by
  rcases s.deliver_cases with h | ⟨m, rest, -, -, -, ⟨-, h⟩ | ⟨-, h⟩⟩ <;> rw [h] <;>
    exact ⟨rfl, rfl⟩

theorem State.deliver_iq_length_le (s : State) : s.deliver.iq.length ≤ s.iq.length := by
  rcases s.deliver_cases with h | ⟨m, rest, hq, -, -, ⟨-, h⟩ | ⟨-, h⟩⟩
  · rw [h]
  · rw [h, hq]
    exact Nat.le_succ _
  · rw [h, hq]
    exact Nat.le_succ _

theorem State.mem_wf_deliver {s : State} (hs : s.mem.wf) : s.deliver.mem.wf := by
  rcases s.deliver_cases with h | ⟨m, rest, -, -, -, ⟨-, h⟩ | ⟨-, h⟩⟩
  · rwa [h]
  · rw [h]
    exact (State.interruptEntry_busAccess (x := false) (s.setIq rest) m).wf hs
  · rwa [h]

/-! ## Every step keeps the invariant -/

/-- The state an instruction is performed in (R100). -/
structure Ready (u : State) : Prop where
  running : u.run = .running
  notSkipping : u.skip = false
  mem_wf : u.mem.wf
  iq_length_le : u.iq.length ≤ Config.queueCapacity

theorem ready_of_boundary {s u : State} (hs : Inv s) (h : s.boundary = .perform u) : Ready u := by
  obtain ⟨t, ht, hskip, rfl⟩ := boundary_eq_perform h
  obtain ⟨hmem, hiq, -⟩ := arrivals_inv hs ht
  obtain ⟨hrun', hskip'⟩ := (t.setRun .running).deliver_run_skip
  exact
    { running := hrun'
      notSkipping := hskip'.trans hskip
      mem_wf := State.mem_wf_deliver (s := t.setRun .running) hmem
      iq_length_le := (t.setRun .running).deliver_iq_length_le.trans hiq }

/-- HLT, SLP, SFR and HCF end with BYT off (R268). -/
theorem exec_byt_of_mayChangeRun {i : Instr} {s t : State} (h : exec i s = .next t) (hi : mayChangeRun i = true) :
    t.byt = .off := by
  cases i with
  | hlt v => rcases execHlt_eq_next (v := v) h with ⟨-, -, rfl⟩ | ⟨-, rfl⟩ <;> rfl
  | slp v | sfr v | hcf a =>
    cases h
    rfl
  | _ => cases hi

theorem exec_inv {i : Instr} {u t : State} (hu : Ready u) (h : exec i u = .next t) : Inv t := by
  have hsys := exec_systemChange h
  refine ⟨(exec_busAccess h).wf hu.mem_wf, hsys.iq_length_le hu.iq_length_le, fun hrun => ⟨?_, ?_⟩⟩
  · obtain ⟨-, -, -, -, -, -, -, hkeep, -⟩ := hsys.keeps
    refine exec_byt_of_mayChangeRun h (eq_true_of_ne_false fun hi => hrun ?_)
    exact (hkeep hi).trans hu.running
  · exact (hsys.skip_of_not_running hu.running hrun).trans hu.notSkipping

/-- A skip goes on in a running CPU only, and leaves it running. -/
theorem skipChain_inv {s : State} (hs : Inv s) (hskip : s.skip = true) : Inv s.skipChain := by
  obtain ⟨hmem, hiq, hrun⟩ := hs
  have hr : s.run = .running := by
    by_contra hne
    obtain ⟨-, hoff⟩ := hrun hne
    exact absurd (hskip.symm.trans hoff) nofun
  obtain ⟨pc, skip, byt, log, h⟩ := s.skipChain_frame
  rw [h]
  exact ⟨hmem, hiq, fun hne => absurd hr hne⟩

theorem idle_inv {s u : State} (hs : Inv s) (h : s.boundary = .idle u) : Inv u := by
  obtain ⟨t, ht, hu⟩ := boundary_eq_idle h
  have hinv := arrivals_inv hs ht
  rcases hu with ⟨hskip, rfl⟩ | rfl | ⟨-, m, rest, hq, rfl⟩
  · exact skipChain_inv hinv hskip
  · exact hinv
  · obtain ⟨hmem, hiq, hrun⟩ := hinv
    rw [hq] at hiq
    exact ⟨hmem, Nat.le_of_succ_le hiq, hrun⟩

theorem idle_haltedDisabled {s u : State} (hs : HaltedDisabled s) (h : s.boundary = .idle u) : HaltedDisabled u := by
  obtain ⟨t, ht, hu⟩ := boundary_eq_idle h
  have hinv := arrivals_haltedDisabled hs ht
  rcases hu with ⟨-, rfl⟩ | rfl | ⟨-, m, rest, -, rfl⟩
  · obtain ⟨pc, skip, byt, log, h⟩ := t.skipChain_frame
    rw [h]
    exact hinv
  · exact hinv
  · exact hinv

theorem step_inv {s t : State} (hs : Inv s) (h : step s = .next t) : Inv t := by
  rcases step_cases s with ⟨f, -, hstep⟩ | ⟨u, hu, hstep⟩ | ⟨u, hu, hstep⟩
  · cases hstep.symm.trans h
  · cases hstep.symm.trans h
    exact idle_inv hs hu
  · exact exec_inv (ready_of_boundary hs hu) (hstep.symm.trans h)

theorem step_haltedDisabled {s t : State} (hs : HaltedDisabled s) (h : step s = .next t)
    (hhcf : ∀ u a, s.boundary = .perform u → u.fetchInstr ≠ .hcf a) : HaltedDisabled t := by
  rcases step_cases s with ⟨f, -, hstep⟩ | ⟨u, hu, hstep⟩ | ⟨u, hu, hstep⟩
  · cases hstep.symm.trans h
  · cases hstep.symm.trans h
    exact idle_haltedDisabled hs hu
  · have hrun : u.run = .running := by
      obtain ⟨v, -, -, rfl⟩ := boundary_eq_perform hu
      exact (v.setRun .running).deliver_run_skip.1
    exact (exec_systemChange (hstep.symm.trans h)).ia_of_halted (fun a => hhcf u a hu) hrun

/-- Settles O58: a step is idle or performs an instruction in a running CPU (`step_cases`), and each keeps both parts. -/
theorem stepKeepsInvariant : Obligations.StepKeepsInvariant :=
  ⟨fun _ _ => step_inv, fun _ _ => step_haltedDisabled⟩

end Sys2Proof.Machine
end

section
/-! The memory of 20_memory.md: the address facts of the two translations (R41, R42, R44), what one access to the bus
does (R52), and the statements about words in memory (O9, O10, O11, O60); with them the written-out encodings (O3),
whose octet order is that of a word in memory (R43). -/

namespace Sys2Proof.Machine

open Sys2Proof.Safety

/-! ## Octets and fields as numbers -/

theorem joinOctets_toNat (lo hi : Byte) : (joinOctets lo hi).toNat = lo.toNat + 256 * hi.toNat := by
  rw [joinOctets, BitVec.toNat_append, ← Nat.shiftLeft_add_eq_or_of_lt lo.isLt, Nat.shiftLeft_eq]
  omega

theorem blockOf_toNat (va : Word) : (blockOf va).toNat = va.toNat / 4096 := by
  have hva := va.isLt
  simp only [blockOf, BitVec.extractLsb'_toNat, Nat.shiftRight_eq_div_pow]
  omega

theorem offsetOf_toNat (va : Word) : (offsetOf va).toNat = va.toNat % 4096 := by
  simp [offsetOf, BitVec.extractLsb'_toNat]

/-! ## Where the octets of a word lie -/

section
variable {s : State}

theorem State.lowAddr_of_native (h : s.mode = .native) (va : Word) : s.lowAddr va = s.nativeAddr va := by
  simp only [State.lowAddr, h]

theorem State.lowAddr_of_compatible (h : s.mode = .compatible) (va : Word) : s.lowAddr va = s.compatAddr va := by
  simp only [State.lowAddr, h]

theorem State.highAddr_of_native (h : s.mode = .native) (va : Word) : s.highAddr va = s.lowAddr (va + 1) := by
  simp only [State.highAddr, State.lowAddr, h]

theorem State.highAddr_of_compatible (h : s.mode = .compatible) (va : Word) : s.highAddr va = s.lowAddr va + 1 := by
  simp only [State.highAddr, State.lowAddr, h]

/-- Below the last offset of a block, the next virtual address is translated to the next physical one. -/
theorem State.nativeAddr_add_one (s : State) {va : Word} (h : offsetOf va ≠ 0xfff) :
    s.nativeAddr (va + 1) = s.nativeAddr va + 1 := by
  have hoff : va.toNat % 4096 ≠ 4095 := fun e => h (BitVec.eq_of_toNat_eq ((offsetOf_toNat va).trans e))
  have hsucc : (va + 1).toNat = va.toNat + 1 := by bv_omega
  have hblock : blockOf (va + 1) = blockOf va := by
    apply BitVec.eq_of_toNat_eq
    rw [blockOf_toNat, blockOf_toNat, hsucc]
    omega
  have haddr := s.nativeAddr_toNat va
  have hnext := s.nativeAddr_toNat (va + 1)
  rw [hblock, hsucc] at hnext
  bv_omega

/-- The two octets of a word are physical neighbours, but for the last offset of a block in Native mode. -/
theorem State.highAddr_eq_lowAddr_add_one {va : Word} (h : s.mode = .native → offsetOf va ≠ 0xfff) :
    s.highAddr va = s.lowAddr va + 1 := by
  cases hm : s.mode with
  | native =>
    rw [s.highAddr_of_native hm, s.lowAddr_of_native hm, s.lowAddr_of_native hm, s.nativeAddr_add_one (h hm)]
  | compatible => exact s.highAddr_of_compatible hm va

/-- Equal offsets in blocks on the same page, in Compatible mode on the same pair of pages, lie at the same physical
address (R50). -/
theorem State.lowAddr_eq_of_same_page {x y : Word} (hoff : offsetOf x = offsetOf y)
    (hn : s.mode = .native → s.page (blockOf x) = s.page (blockOf y))
    (hc : s.mode = .compatible → (s.page (blockOf x)).toNat / 2 = (s.page (blockOf y)).toNat / 2) :
    s.lowAddr x = s.lowAddr y := by
  cases hm : s.mode with
  | native => rw [s.lowAddr_of_native hm, s.lowAddr_of_native hm, State.nativeAddr, State.nativeAddr, hn hm, hoff]
  | compatible =>
    apply BitVec.eq_of_toNat_eq
    rw [s.lowAddr_of_compatible hm, s.lowAddr_of_compatible hm, State.compatAddr_toNat, State.compatAddr_toNat, hc hm,
      ← offsetOf_toNat, ← offsetOf_toNat, hoff]

/-- A read of a word depends on its virtual address by the places of its two octets only. -/
theorem State.readWord_congr_addr {x y : Word} (hl : s.lowAddr x = s.lowAddr y) (hh : s.highAddr x = s.highAddr y) :
    s.readWord x = s.readWord y := by
  simp only [State.readWord, hl, hh]

/-! ## One access to the bus (R52) -/

theorem State.octet_of_device {p : PAddr} (h : s.kindAt p = .device) :
    s.octet p = Config.deviceOctet s.turns s.busLog p := by
  simp only [State.octet, h]

theorem State.octet_of_not_device {p : PAddr} (h : s.kindAt p ≠ .device) : s.octet p = Memory.read s.mem p.toNat := by
  unfold State.octet
  split
  · contradiction
  · rfl
  · rfl

theorem State.noteRead_of_device {p : PAddr} (h : s.kindAt p = .device) :
    s.noteRead [p] = { s with busLog := s.busLog ++ [.memRead p] } := by
  simp [State.noteRead, State.readEvents, h]

theorem State.setOctet_of_not_ram {p : PAddr} (h : s.kindAt p ≠ .ram) (v : Byte) :
    s.setOctet p v =
      { s with
        mem := Memory.writeAll s.mem (Config.writeEffect s.turns (s.busLog ++ [.memWrite p v]))
        busLog := s.busLog ++ [.memWrite p v] } := by
  simp only [State.setOctet, if_neg h]

/-- Octets read in one go are recorded as octets read one after the other. -/
theorem State.noteRead_append (s : State) (l m : List PAddr) : s.noteRead (l ++ m) = (s.noteRead l).noteRead m := by
  simp [State.noteRead, State.readEvents, State.kindAt]

theorem State.kindAt_of_no_regions (h : s.cfg.physBus.regions = []) (p : PAddr) : s.kindAt p = .ram := by
  simp only [State.kindAt, h, kindIn]

end

/-- Settles O3: the decoder is run on each of the nine words. -/
theorem writtenOutWordsDecode : Obligations.WrittenOutWordsDecode :=
  ⟨rfl, rfl, rfl, rfl, rfl, rfl, rfl, rfl, rfl⟩

/-- Settles O9. -/
theorem nativeTranslation : Obligations.NativeTranslation := fun s va hm =>
  ⟨blockOf_toNat va, by rw [s.lowAddr_of_native hm, State.nativeAddr_toNat]⟩

/-- Settles O60, one clause for each kind of region. -/
theorem physicalBusAccess : Obligations.PhysicalBusAccess := by
  intro s p v
  refine ⟨fun hram => ⟨?_, ?_, fun q hq => ?_⟩, fun hram => State.setOctet_of_not_ram hram v,
    fun hdev => ⟨State.octet_of_not_device hdev, State.noteRead_of_not_device (by simpa using hdev)⟩,
    fun hdev => ⟨State.octet_of_device hdev, State.noteRead_of_device hdev⟩,
    fun hregions => State.kindAt_of_no_regions hregions p,
    fun l hl => s.octet_storeOctets_of_not_mem l p hl, fun va w => ⟨?_, rfl⟩⟩
  · rw [State.octet_setOctet hram, if_pos rfl]
  · rw [State.setOctet_busLog, if_pos hram]
  · rw [State.octet_setOctet hram, if_neg hq]
  · exact s.noteRead_append [s.lowAddr va] [s.highAddr va]

/-- Settles O10. -/
theorem wordsInMemory : Obligations.WordsInMemory := by
  intro s va v
  refine ⟨joinOctets_toNat _ _, fun hdev => ⟨?_, State.noteRead_of_not_device hdev⟩,
    fun ⟨hl, hh⟩ => ⟨?_, fun q hq => ?_⟩,
    fun hm => s.highAddr_of_native hm va, fun hm => ?_⟩
  · have hhigh : s.kindAt (s.highAddr va) ≠ .device := hdev _ (by simp [wordOctets])
    rw [State.readWord_eq hhigh, joinOctets_toNat]
  · exact State.readWord_writeWord_self hl hh v
  · simp only [wordOctets, List.mem_cons, List.not_mem_nil, or_false, not_or] at hq
    obtain ⟨hqlow, hqhigh⟩ := hq
    rw [State.octet_writeWord hl hh, if_neg hqlow, if_neg hqhigh]
  · rw [s.highAddr_of_compatible hm, s.lowAddr_of_compatible hm]
    exact ⟨s.compatAddr_toNat va, s.compatAddr_succ_toNat va⟩

/-- Settles O11: the two virtual addresses name the same two physical octets, so the word read at the second is the word
read at the first. -/
theorem aliasedBlocksShareWords : Obligations.AliasedBlocksShareWords := by
  intro s x y v hoff ⟨hl, hh⟩ hn hc
  have hlow : s.lowAddr x = s.lowAddr y := State.lowAddr_eq_of_same_page hoff (fun hm => (hn hm).1) hc
  have hhigh : s.highAddr x = s.highAddr y := by
    rw [State.highAddr_eq_lowAddr_add_one fun hm => (hn hm).2,
      State.highAddr_eq_lowAddr_add_one fun hm => hoff ▸ (hn hm).2, hlow]
  calc (s.writeWord x v).readWord y
      = (s.writeWord x v).readWord x := State.readWord_congr_addr hlow.symm hhigh.symm
    _ = v := State.readWord_writeWord_self hl hh v

end Sys2Proof.Machine
end

section
/-! The encoding of 30_encoding.md: operand codes and operands, the three formats with their opcode maps, and the round
trip of decoder and encoder in both directions (O1, O2). -/

namespace Sys2Proof

/-! ## Words as bytes (R43) -/

/-- Words as they lie in memory, each low octet first (R43). -/
def octetsOf (ws : List Word) : List Byte := ws.flatMap fun w => [lowOctet w, highOctet w]

theorem encodeBytes_eq (i : Instr) : encodeBytes i = octetsOf (encode i) := rfl

@[simp] theorem octetsOf_cons (w : Word) (ws : List Word) :
    octetsOf (w :: ws) = lowOctet w :: highOctet w :: octetsOf ws := rfl

theorem octetsOf_append (ws vs : List Word) : octetsOf (ws ++ vs) = octetsOf ws ++ octetsOf vs :=
  List.flatMap_append

theorem takeWords_octetsOf (ws : List Word) (rest : List Byte) :
    takeWords ws.length (octetsOf ws ++ rest) = some (ws, rest) := by
  induction ws with
  | nil => rfl
  | cons w ws ih => simp [Machine.takeWords_octets, ih]

/-- The words taken off a list of bytes are the bytes they were read from. -/
theorem takeWords_eq_some {k : Nat} {bytes rest : List Byte} {ws : List Word}
    (h : takeWords k bytes = some (ws, rest)) : ws.length = k ∧ octetsOf ws ++ rest = bytes := by
  induction k generalizing bytes ws with
  | zero =>
    cases h
    exact ⟨rfl, rfl⟩
  | succ k ih =>
    match bytes with
    | [] | [_] => cases h
    | lo :: hi :: bytes =>
      simp only [takeWords] at h
      split at h
      · rename_i vs rest' hvs
        cases h
        obtain ⟨hlen, hbytes⟩ := ih hvs
        simp [hlen, hbytes]
      · cases h

theorem takeWords_of_le {k : Nat} {bytes : List Byte} (h : 2 * k ≤ bytes.length) :
    ∃ ws rest, takeWords k bytes = some (ws, rest) := by
  induction k generalizing bytes with
  | zero => exact ⟨[], bytes, rfl⟩
  | succ k ih =>
    match bytes with
    | [] => simp at h
    | [_] => simp at h; omega
    | lo :: hi :: bytes =>
      obtain ⟨ws, rest, hws⟩ := ih (bytes := bytes) (by simp at h; omega)
      exact ⟨joinOctets lo hi :: ws, rest, by simp only [takeWords, hws]⟩

/-! ## Operand codes (R76, R77) -/

@[simp] theorem regNumber_regOfNumber (k : BitVec 3) : regNumber (regOfNumber k) = k := by
  revert k
  decide

@[simp] theorem regOfNumber_regNumber (r : Reg) : regOfNumber (regNumber r) = r := by
  cases r <;> rfl

/-- A six-bit code lies in one of the five ranges of the operand table (R76). -/
theorem operandCode_ranges (c : BitVec 6) :
    (∃ k : BitVec 3, c = 0b000#3 ++ k) ∨ (∃ k : BitVec 3, c = 0b001#3 ++ k) ∨ (∃ k : BitVec 3, c = 0b010#3 ++ k) ∨
      (∃ k : BitVec 3, c = 0b011#3 ++ k) ∨ 0x20 ≤ c.toNat := by
  revert c
  decide

/-- The two halves of a code in the register ranges, as numbers. -/
theorem code_toNat (t k : BitVec 3) : (t ++ k).toNat = 8 * t.toNat + k.toNat := by
  revert t k
  decide

theorem code_low (t k : BitVec 3) : (t ++ k).extractLsb' 0 3 = k := BitVec.extractLsb'_append_eq_right

section
variable (k : BitVec 3) (n : Word)

theorem operandOfCode_reg : operandOfCode (0b000#3 ++ k) n = .reg (regOfNumber k) := by
  have hk := k.isLt
  simp only [operandOfCode, code_low, code_toNat, BitVec.toNat_ofNat]
  rw [if_pos (by omega)]

theorem operandOfCode_ind : operandOfCode (0b001#3 ++ k) n = .ind (regOfNumber k) := by
  have hk := k.isLt
  simp only [operandOfCode, code_low, code_toNat, BitVec.toNat_ofNat]
  rw [if_neg (by omega), if_pos (by omega)]

theorem operandOfCode_indNext : operandOfCode (0b010#3 ++ k) n = .indNext (regOfNumber k) n := by
  have hk := k.isLt
  simp only [operandOfCode, code_low, code_toNat, BitVec.toNat_ofNat]
  rw [if_neg (by omega), if_neg (by omega), if_pos (by omega)]

theorem operandOfCode_special : operandOfCode (0b011#3 ++ k) n = specialOperand k n := by
  have hk := k.isLt
  simp only [operandOfCode, code_low, code_toNat, BitVec.toNat_ofNat]
  rw [if_neg (by omega), if_neg (by omega), if_neg (by omega), if_pos (by omega)]

theorem operandOfCode_inline {c : BitVec 6} (h : 0x20 ≤ c.toNat) :
    operandOfCode c n = .inline (c.setWidth 16 - 0x21#16) := by
  simp only [operandOfCode]
  rw [if_neg (by omega), if_neg (by omega), if_neg (by omega), if_neg (by omega)]

end

theorem operandCode_specialOperand (k : BitVec 3) (n : Word) : operandCode (specialOperand k n) = 0b011#3 ++ k := by
  have hcode : ∀ k, operandCode (specialOperand k 0) = 0b011#3 ++ k := by decide
  rw [← hcode k]
  unfold specialOperand
  split_ifs <;> rfl

theorem okAsB_specialOperand (k : BitVec 3) (n : Word) : (specialOperand k n).okAsB = true := by
  unfold specialOperand
  split_ifs <;> rfl

/-- The code of an inline literal lies in the upper half of the codes, and stands for that literal (R77). -/
theorem inlineCode_of_inlineRange {n : Word} (h : inlineRange n = true) :
    0x20 ≤ ((n + 0x21#16).setWidth 6).toNat ∧ ((n + 0x21#16).setWidth 6).setWidth 16 - 0x21#16 = n := by
  simp only [inlineRange, Bool.or_eq_true, beq_iff_eq, decide_eq_true_eq] at h
  rcases h with rfl | h
  · decide
  · constructor <;> bv_omega

/-- The operand of a code has that code, and fits an a field (R76, R77). -/
theorem operandOfCode_spec (c : BitVec 6) (n : Word) :
    operandCode (operandOfCode c n) = c ∧ (operandOfCode c n).okAsA = true := by
  rcases operandCode_ranges c with ⟨k, rfl⟩ | ⟨k, rfl⟩ | ⟨k, rfl⟩ | ⟨k, rfl⟩ | hc
  · rw [operandOfCode_reg]
    exact ⟨congrArg (0b000#3 ++ ·) (regNumber_regOfNumber k), rfl⟩
  · rw [operandOfCode_ind]
    exact ⟨congrArg (0b001#3 ++ ·) (regNumber_regOfNumber k), rfl⟩
  · rw [operandOfCode_indNext]
    exact ⟨congrArg (0b010#3 ++ ·) (regNumber_regOfNumber k), rfl⟩
  · rw [operandOfCode_special]
    exact ⟨operandCode_specialOperand k n, Operand.okAsA_of_okAsB (okAsB_specialOperand k n)⟩
  · rw [operandOfCode_inline n hc]
    revert c
    decide

/-- A code of the b field stands for an operand that fits there (R76). -/
theorem okAsB_operandOfCode (d : BitVec 5) (n : Word) : (operandOfCode (d.setWidth 6) n).okAsB = true := by
  rcases operandCode_ranges (d.setWidth 6) with ⟨k, hk⟩ | ⟨k, hk⟩ | ⟨k, hk⟩ | ⟨k, hk⟩ | hd
  · rw [hk, operandOfCode_reg]
    rfl
  · rw [hk, operandOfCode_ind]
    rfl
  · rw [hk, operandOfCode_indNext]
    rfl
  · rw [hk, operandOfCode_special]
    exact okAsB_specialOperand k n
  · have hlt := d.isLt
    bv_omega

theorem eq_of_mem_operandNext_specialOperand {k : BitVec 3} {n m : Word} (h : m ∈ operandNext (specialOperand k n)) :
    m = n := by
  revert h
  unfold specialOperand
  split_ifs <;> simp [operandNext]

/-- The next word of the operand of a code, if it has one, is the word given. -/
theorem eq_of_mem_operandNext {c : BitVec 6} {n m : Word} (h : m ∈ operandNext (operandOfCode c n)) : m = n := by
  rcases operandCode_ranges c with ⟨k, rfl⟩ | ⟨k, rfl⟩ | ⟨k, rfl⟩ | ⟨k, rfl⟩ | hc
  · rw [operandOfCode_reg] at h
    cases h
  · rw [operandOfCode_ind] at h
    cases h
  · rw [operandOfCode_indNext] at h
    exact List.mem_singleton.1 h
  · rw [operandOfCode_special] at h
    exact eq_of_mem_operandNext_specialOperand h
  · rw [operandOfCode_inline n hc] at h
    cases h

/-- An operand is read back from its code and its next word (R76, R77). -/
theorem operandOfCode_operandCode {a : Operand} (ha : a.okAsA = true) (ms : List Word) :
    operandOfCode (operandCode a) ((operandNext a ++ ms).getD 0 0) = a := by
  cases a with
  | reg r => exact (operandOfCode_reg _ _).trans (congrArg _ (regOfNumber_regNumber r))
  | ind r => exact (operandOfCode_ind _ _).trans (congrArg _ (regOfNumber_regNumber r))
  | indNext r n => exact (operandOfCode_indNext _ _).trans (congrArg (Operand.indNext · n) (regOfNumber_regNumber r))
  | pick n => exact operandOfCode_special 2#3 n
  | absolute n => exact operandOfCode_special 6#3 n
  | literal n => exact operandOfCode_special 7#3 n
  | inline n =>
    obtain ⟨hrange, hvalue⟩ := inlineCode_of_inlineRange ha
    exact (operandOfCode_inline _ hrange).trans (congrArg _ hvalue)
  | _ => rfl

theorem operandNext_eq_replicate (c : BitVec 6) (n : Word) :
    operandNext (operandOfCode c n) = List.replicate (nextCount c) n := by
  obtain ⟨hcode, hok⟩ := operandOfCode_spec c n
  refine List.eq_replicate_iff.2 ⟨?_, fun m => eq_of_mem_operandNext⟩
  rw [← nextCount_operandCode hok, hcode]

theorem nextCount_le_one (c : BitVec 6) : nextCount c ≤ 1 := by
  unfold nextCount
  split <;> decide

/-- The next words of a code are the next words of its operand (R75, R76). -/
theorem operandNext_operandOfCode {c : BitVec 6} {ns : List Word} (h : ns.length = nextCount c) :
    operandNext (operandOfCode c (ns.getD 0 0)) = ns := by
  have hle : ns.length ≤ 1 := h ▸ nextCount_le_one c
  rw [operandNext_eq_replicate, ← h]
  match ns, hle with
  | [], _ | [_], _ => rfl

/-! ## The opcode maps (R80 to R83) -/

/-- The format of an instruction: the opcode map and the opcode it stands under, the words the encoder gives it, and the
operands it checks (R71, R72, R73). -/
inductive InFormat (i : Instr) : Prop where
  | basic {o : BitVec 5} {b a : Operand} (hwords : encode i = basicWords o b a) (ho : o ≠ 0#5)
      (hmap : basicInstr o b a = some i) (hwf : i.wellFormed = (b.okAsB && a.okAsA))
  | special {o : BitVec 5} {a : Operand} (hwords : encode i = specialWords o a) (ho : o ≠ 0#5)
      (hmap : specialInstr o a = some i) (hwf : i.wellFormed = a.okAsA)
  | implied {o : BitVec 5} {v : Bool} (hwords : encode i = impliedWords o v) (hmap : impliedInstr o v = i)

/-- Every instruction stands in an opcode map under the opcode the encoder gives it. -/
theorem inFormat (i : Instr) : InFormat i := by
  cases i with
  | set b a | add b a | sub b a | mul b a | mli b a | div b a | dvi b a | mod b a | mdi b a | and b a | bor b a
  | xor b a | shr b a | asr b a | shl b a | ifb b a | ifc b a | ife b a | ifn b a | ifg b a | ifa b a | ifl b a
  | ifu b a | reservedBasic18 b a | reservedBasic19 b a | adx b a | sbx b a | hww b a | hwr b a | sti b a | std b a =>
    exact .basic rfl (by decide) rfl rfl
  | hlt v | slp v | sfr v | reservedImplied03 v | byt v | reservedImplied05 v | reservedImplied06 v
  | reservedImplied07 v | reservedImplied08 v | reservedImplied09 v | reservedImplied0a v | reservedImplied0b v
  | reservedImplied0c v | reservedImplied0d v | reservedImplied0e v | reservedImplied0f v | skp v
  | reservedImplied11 v | reservedImplied12 v | reservedImplied13 v | reservedImplied14 v | reservedImplied15 v
  | reservedImplied16 v | reservedImplied17 v | reservedImplied18 v | reservedImplied19 v | reservedImplied1a v
  | reservedImplied1b v | reservedImplied1c v | reservedImplied1d v | reservedImplied1e v | reservedImplied1f v =>
    exact .implied rfl rfl
  | _ => exact .special rfl (by decide) rfl rfl

/-- An opcode other than the escape 0x00 has a basic instruction, which is encoded under it and checks both its operands
(R80, R83). -/
theorem basicInstr_spec {o : BitVec 5} (ho : o ≠ 0#5) (b a : Operand) :
    ∃ i, basicInstr o b a = some i ∧ encode i = basicWords o b a ∧ i.wellFormed = (b.okAsB && a.okAsA) := by
  obtain ⟨⟨n, hn⟩⟩ := o
  interval_cases n
  · exact absurd rfl ho
  all_goals exact ⟨_, rfl, rfl, rfl⟩

/-- An opcode other than the escape 0x00 has a special instruction, which is encoded under it and checks its operand
(R81, R83). -/
theorem specialInstr_spec {o : BitVec 5} (ho : o ≠ 0#5) (a : Operand) :
    ∃ i, specialInstr o a = some i ∧ encode i = specialWords o a ∧ i.wellFormed = a.okAsA := by
  obtain ⟨⟨n, hn⟩⟩ := o
  interval_cases n
  · exact absurd rfl ho
  all_goals exact ⟨_, rfl, rfl, rfl⟩

/-- The implied instruction of an opcode is encoded under it, and is well formed (R82, R83). -/
theorem impliedInstr_spec (o : BitVec 5) (v : Bool) :
    encode (impliedInstr o v) = impliedWords o v ∧ (impliedInstr o v).wellFormed = true := by
  obtain ⟨⟨n, hn⟩⟩ := o
  interval_cases n
  all_goals exact ⟨rfl, rfl⟩

/-! ## First words (R71, R72, R73) -/

theorem append_fields (w : Word) : aField w ++ bField w ++ opField w = w := by
  simp only [aField, bField, opField]
  rw [BitVec.extractLsb'_append_extractLsb'_eq_extractLsb' (by rfl),
    BitVec.extractLsb'_append_extractLsb'_eq_extractLsb' (by rfl)]
  exact BitVec.extractLsb'_eq_self

/-- A first word with both escape opcodes is the flag and the opcode of the implied format (R73). -/
theorem append_impliedFields (c : BitVec 6) :
    (BitVec.ofBool (vField (c ++ 0#5 ++ 0#5)) ++ impliedField (c ++ 0#5 ++ 0#5) ++ 0#10 : Word) = c ++ 0#5 ++ 0#5 := by
  revert c
  decide

theorem opField_append_implied (o : BitVec 5) (v : Bool) : opField (BitVec.ofBool v ++ o ++ 0#10 : Word) = 0#5 := by
  revert o v
  decide

theorem bField_append_implied (o : BitVec 5) (v : Bool) : bField (BitVec.ofBool v ++ o ++ 0#10 : Word) = 0#5 := by
  revert o v
  decide

section
variable {c : BitVec 6} {d o : BitVec 5}

theorem instrLength_basic (ho : o ≠ 0#5) :
    instrLength (c ++ d ++ o : Word) = 1 + nextCount c + nextCount (d.setWidth 6) := by
  simp only [instrLength, opField_append, aField_append, bField_append, ne_eq, ho, not_false_eq_true, if_true]

theorem instrLength_special (hd : d ≠ 0#5) : instrLength (c ++ d ++ 0#5 : Word) = 1 + nextCount c := by
  simp only [instrLength, opField_append, aField_append, bField_append, ne_eq, hd, not_true_eq_false, not_false_eq_true,
    if_true, if_false]

theorem instrLength_implied : instrLength (c ++ 0#5 ++ 0#5 : Word) = 1 := by
  simp only [instrLength, opField_append, bField_append, ne_eq, not_true_eq_false, if_false]

/-! ## The decoder on words (R74, R88) -/

/-- The b operand takes the word after a's next word, if a has one (R88). -/
theorem nextB_eq (na ms : List Word) (hna : na.length = nextCount c) :
    (if codeHasNext c then (na ++ ms).getD 1 0 else (na ++ ms).getD 0 0) = ms.getD 0 0 := by
  unfold nextCount at hna
  split at hna
  · rename_i hc
    obtain ⟨n, rfl⟩ := List.length_eq_one_iff.1 hna
    rw [if_pos hc]
    rfl
  · rename_i hc
    obtain rfl := List.length_eq_zero_iff.1 hna
    rw [if_neg hc]
    rfl

theorem decodeWords_basic {b a : Operand} {i : Instr} {na ms : List Word} (hna : na.length = nextCount c)
    (ha : operandOfCode c ((na ++ ms).getD 0 0) = a) (hb : operandOfCode (d.setWidth 6) (ms.getD 0 0) = b)
    (hi : basicInstr o b a = some i) :
    decodeWords (c ++ d ++ o) ((na ++ ms).getD 0 0) ((na ++ ms).getD 1 0) = i := by
  simp only [decodeWords, opField_append, aField_append, bField_append, nextB_eq na ms hna, ha, hb, hi]

theorem decodeWords_special {a : Operand} {i : Instr} {n₁ n₂ : Word} (ha : operandOfCode c n₁ = a)
    (hi : specialInstr d a = some i) : decodeWords (c ++ d ++ 0#5) n₁ n₂ = i := by
  have hbasic (b : Operand) : basicInstr 0#5 b a = none := rfl
  simp only [decodeWords, opField_append, aField_append, bField_append, ha, hbasic, hi]

end

theorem decodeWords_implied {w : Word} (hop : opField w = 0#5) (hb : bField w = 0#5) (n₁ n₂ : Word) :
    decodeWords w n₁ n₂ = impliedInstr (impliedField w) (vField w) := by
  simp only [decodeWords, hop, hb]
  rfl

/-! ## Encoded instructions -/

theorem exists_encode_eq_cons (i : Instr) : ∃ w ns, encode i = w :: ns := by
  cases inFormat i with
  | basic hwords | special hwords | implied hwords => exact ⟨_, _, hwords⟩

/-- The words of a well-formed instruction are as many as its first word says (R70, R75). -/
theorem length_of_encode_eq_cons {i : Instr} {w : Word} {ns : List Word} (hi : i.wellFormed = true)
    (h : encode i = w :: ns) : ns.length = instrLength w - 1 := by
  have hlen : (encode i).length = instrLength ((encode i).headD 0) := by
    cases inFormat i with
    | basic hwords ho _ hwf =>
      obtain ⟨hb, ha⟩ := Bool.and_eq_true_iff.1 (hwf.symm.trans hi)
      rw [hwords, basicWords_length ho hb ha]
    | special hwords ho _ hwf => rw [hwords, specialWords_length ho (hwf.symm.trans hi)]
    | implied hwords => rw [hwords, impliedWords_length]
  rw [h] at hlen
  exact Nat.eq_sub_of_add_eq hlen

/-- The words of a well-formed instruction are read back as that instruction, whatever words follow (R74, R88). -/
theorem decodeWords_of_encode_eq_cons {i : Instr} {w : Word} {ns : List Word} (hi : i.wellFormed = true)
    (h : encode i = w :: ns) (ms : List Word) :
    decodeWords w ((ns ++ ms).getD 0 0) ((ns ++ ms).getD 1 0) = i := by
  cases inFormat i with
  | basic hwords _ hmap hwf =>
    obtain ⟨hb, ha⟩ := Bool.and_eq_true_iff.1 (hwf.symm.trans hi)
    obtain ⟨rfl, rfl⟩ := List.cons.inj (hwords.symm.trans h)
    rw [List.append_assoc]
    refine decodeWords_basic (nextCount_operandCode ha).symm (operandOfCode_operandCode ha _) ?_ hmap
    rw [operandCode_asB hb]
    exact operandOfCode_operandCode (Operand.okAsA_of_okAsB hb) ms
  | special hwords _ hmap hwf =>
    obtain ⟨rfl, rfl⟩ := List.cons.inj (hwords.symm.trans h)
    exact decodeWords_special (operandOfCode_operandCode (hwf.symm.trans hi) ms) hmap
  | @implied o v hwords hmap =>
    obtain ⟨rfl, rfl⟩ := List.cons.inj (hwords.symm.trans h)
    rw [decodeWords_implied (opField_append_implied o v) (bField_append_implied o v), impliedField_append,
      vField_append, hmap]

/-- Every first word with as many next words as it asks for is the encoding of a well-formed instruction (R75, R83). -/
theorem exists_encode_eq {w : Word} {ns : List Word} (h : ns.length = instrLength w - 1) :
    ∃ i : Instr, i.wellFormed = true ∧ encode i = w :: ns := by
  obtain ⟨c, d, o, rfl⟩ : ∃ (c : BitVec 6) (d o : BitVec 5), w = c ++ d ++ o := ⟨_, _, _, (append_fields w).symm⟩
  by_cases ho : o = 0#5
  · subst ho
    by_cases hd : d = 0#5
    · subst hd
      rw [instrLength_implied, Nat.sub_self, List.length_eq_zero_iff] at h
      obtain ⟨hwords, hwf⟩ := impliedInstr_spec (impliedField (c ++ 0#5 ++ 0#5)) (vField (c ++ 0#5 ++ 0#5))
      exact ⟨_, hwf, by rw [hwords, impliedWords, append_impliedFields, h]⟩
    · rw [instrLength_special hd, Nat.add_sub_cancel_left] at h
      obtain ⟨hcode, hok⟩ := operandOfCode_spec c (ns.getD 0 0)
      obtain ⟨i, -, hwords, hwf⟩ := specialInstr_spec hd (operandOfCode c (ns.getD 0 0))
      exact ⟨i, hwf.trans hok, by rw [hwords, specialWords, hcode, operandNext_operandOfCode h]⟩
  · rw [instrLength_basic ho, Nat.add_assoc, Nat.add_sub_cancel_left] at h
    obtain ⟨na, nb, rfl, hna, hnb⟩ : ∃ na nb, ns = na ++ nb ∧ na.length = nextCount c ∧
        nb.length = nextCount (d.setWidth 6) :=
      ⟨ns.take (nextCount c), ns.drop (nextCount c), (List.take_append_drop _ _).symm, by rw [List.length_take]; omega,
        by rw [List.length_drop]; omega⟩
    obtain ⟨hcodeA, hokA⟩ := operandOfCode_spec c (na.getD 0 0)
    obtain ⟨hcodeB, -⟩ := operandOfCode_spec (d.setWidth 6) (nb.getD 0 0)
    obtain ⟨i, -, hwords, hwf⟩ := basicInstr_spec ho (operandOfCode (d.setWidth 6) (nb.getD 0 0))
      (operandOfCode c (na.getD 0 0))
    refine ⟨i, ?_, ?_⟩
    · rw [hwf, okAsB_operandOfCode, hokA, Bool.and_self]
    · rw [hwords, basicWords, hcodeA, hcodeB, operandNext_operandOfCode hna, operandNext_operandOfCode hnb,
        BitVec.setWidth_setWidth_of_le d (by decide), BitVec.setWidth_eq]

/-! ## The decoder on bytes -/

theorem decode_octetsOf {w : Word} {ns : List Word} (h : ns.length = instrLength w - 1) (rest : List Byte) :
    decode (octetsOf (w :: ns) ++ rest) = .ok (decodeWords w (ns.getD 0 0) (ns.getD 1 0), rest) := by
  have hfirst : takeWords 1 (octetsOf (w :: ns) ++ rest) = some ([w], octetsOf ns ++ rest) := by
    rw [octetsOf_cons, List.cons_append, List.cons_append, Machine.takeWords_octets]
    rfl
  have hnext : takeWords (instrLength w - 1) (octetsOf ns ++ rest) = some (ns, rest) := h ▸ takeWords_octetsOf ns rest
  simp only [decode, hfirst, hnext]

/-- What the decoder reads is the instruction of the words the bytes begin with. -/
theorem decode_eq_ok {bytes rest : List Byte} {i : Instr} (h : decode bytes = .ok (i, rest)) :
    ∃ w ns, ns.length = instrLength w - 1 ∧ octetsOf (w :: ns) ++ rest = bytes ∧
      decodeWords w (ns.getD 0 0) (ns.getD 1 0) = i := by
  unfold decode at h
  split at h
  · rename_i w bytes' hfirst
    split at h
    · rename_i ns rest' hnext
      cases h
      obtain ⟨-, hw⟩ := takeWords_eq_some hfirst
      obtain ⟨hlen, hns⟩ := takeWords_eq_some hnext
      exact ⟨w, ns, hlen, by rw [← hw, ← hns]; rfl, rfl⟩
    · cases h
  · cases h

/-- The bytes of a well-formed instruction are read back, whatever bytes follow. -/
theorem decode_encodeBytes {i : Instr} (hi : i.wellFormed = true) (rest : List Byte) :
    decode (encodeBytes i ++ rest) = .ok (i, rest) := by
  obtain ⟨w, ns, h⟩ := exists_encode_eq_cons i
  have hword := decodeWords_of_encode_eq_cons hi h []
  rw [List.append_nil] at hword
  rw [encodeBytes_eq, h, decode_octetsOf (length_of_encode_eq_cons hi h), hword]

/-- Settles O1. -/
theorem decodeOfEncode : Obligations.DecodeOfEncode := fun _ rest hi => decode_encodeBytes hi rest

/-- Settles O2: the words the decoder took are the encoding of a well-formed instruction (`exists_encode_eq`), and that
is the one they are read back as. -/
theorem encodeOfDecode : Obligations.EncodeOfDecode := by
  refine ⟨fun bytes i rest h => ?_, fun w rest hlen => ?_⟩
  · obtain ⟨w, ns, hns, rfl, -⟩ := decode_eq_ok h
    obtain ⟨j, hj, henc⟩ := exists_encode_eq hns
    rw [← henc, ← encodeBytes_eq, decode_encodeBytes hj rest] at h
    cases h
    exact ⟨hj, by rw [encodeBytes_eq, henc]⟩
  · obtain ⟨ns, rest', hnext⟩ := takeWords_of_le hlen
    obtain ⟨hns, rfl⟩ := takeWords_eq_some hnext
    exact ⟨_, rest', decode_octetsOf hns rest'⟩

end Sys2Proof
end

section
/-! What a step performs: the reserved opcodes (O4), and the instruction whose bytes lie at PC (R74, R88, R100; O40). -/

namespace Sys2Proof.Machine

open Sys2Proof.Safety

/-- Settles O4, one case for each of the 37 reserved opcodes. -/
theorem reservedOpcodesFault : Obligations.ReservedOpcodesFault := by
  intro i s hi
  cases i with
  | reservedBasic18 b a | reservedBasic19 b a => rfl
  | reservedSpecial03 a | reservedSpecial04 a | reservedSpecial06 a | reservedSpecial0d a | reservedSpecial16 a
  | reservedSpecial17 a | reservedSpecial19 a | reservedSpecial1e a => rfl
  | reservedImplied03 v | reservedImplied05 v | reservedImplied06 v | reservedImplied07 v | reservedImplied08 v
  | reservedImplied09 v | reservedImplied0a v | reservedImplied0b v | reservedImplied0c v | reservedImplied0d v
  | reservedImplied0e v | reservedImplied0f v | reservedImplied11 v | reservedImplied12 v | reservedImplied13 v
  | reservedImplied14 v | reservedImplied15 v | reservedImplied16 v | reservedImplied17 v | reservedImplied18 v
  | reservedImplied19 v | reservedImplied1a v | reservedImplied1b v | reservedImplied1c v | reservedImplied1d v
  | reservedImplied1e v | reservedImplied1f v => rfl
  | _ => cases hi

/-! ## The boundary where nothing arrives and nothing is triggered -/

section
variable {s : State}

theorem State.arrivals_of_nothingArrives (h : nothingArrives s) : s.arrivals = some (turned s) := by
  rw [State.arrivals, h]
  rfl

theorem State.deliver_of_not_triggered (h : s.iq = [] ∨ s.qf = true ∨ s.byt ≠ .off) : s.deliver = s := by
  rcases s.deliver_cases with hd | ⟨m, rest, hiq, hqf, hbyt, -⟩
  · exact hd
  · rcases h with h | h | h
    · exact absurd (hiq.symm.trans h) (List.cons_ne_nil m rest)
    · exact absurd (hqf.symm.trans h) Bool.false_ne_true
    · exact absurd hbyt h

theorem State.boundary_of_running (ha : nothingArrives s) (hskip : s.skip = false) (hrun : s.run = .running) :
    s.boundary = .perform (turned s).deliver := by
  have hskip' : (turned s).skip = false := hskip
  have hrun' : (turned s).run = .running := hrun
  simp only [State.boundary, State.arrivals_of_nothingArrives ha, hskip', hrun', Bool.false_eq_true, if_false]

end

/-! ## What is fetched -/

theorem State.codeBytes_eq (s : State) : s.codeBytes = octetsOf [s.codeWords.1, s.codeWords.2.1, s.codeWords.2.2] := rfl

/-- The bytes at PC decode to the instruction a step fetches there: it takes its own words and leaves the others. -/
theorem State.decode_codeBytes (s : State) : ∃ rest, decode s.codeBytes = .ok (s.fetchInstr, rest) := by
  obtain ⟨⟨w, n, t⟩, hwords⟩ : ∃ ws, s.codeWords = ws := ⟨_, rfl⟩
  obtain ⟨hlow, hhigh⟩ := instrLength_bounds w
  have hns : ([n, t].take (instrLength w - 1)).length = instrLength w - 1 := by
    rw [List.length_take, List.length_cons, List.length_singleton]
    omega
  obtain ⟨i, hi, henc⟩ := exists_encode_eq hns
  have hfetch : s.fetchInstr = i := by
    have hread := decodeWords_of_encode_eq_cons hi henc ([n, t].drop (instrLength w - 1))
    rw [List.take_append_drop] at hread
    rw [State.fetchInstr, hwords]
    exact hread
  have hbytes : s.codeBytes = encodeBytes i ++ octetsOf ([n, t].drop (instrLength w - 1)) := by
    rw [encodeBytes_eq, henc, ← octetsOf_append, List.cons_append, List.take_append_drop, State.codeBytes_eq, hwords]
  exact ⟨_, by rw [hfetch, hbytes, decode_encodeBytes hi]⟩

/-! ## Where the words of an instruction lie (R88) -/

theorem pcAfter_succ (s : State) (k : Nat) : pcAfter s (k + 1) = pcAfter s k + s.wordStep := by
  rw [pcAfter, pcAfter, BitVec.ofNat_add, BitVec.add_mul, ← add_assoc]
  exact congrArg _ (BitVec.one_mul _)

theorem State.pastWord_pc (s : State) : s.pastWord.pc = pcAfter s 1 := by
  rw [pcAfter_succ]
  simp [State.pastWord, pcAfter]

theorem State.readA_pc (s : State) (a : Operand) : (s.readA a).pc = pcAfter s (specialLength a) := by
  have hpc : (s.readA a).pc = s.pastWord.pc + s.wordsStep (operandNext a).length := by
    rw [State.readA, State.afterA, State.resolveA_snd]
    rfl
  rw [hpc, State.pastWord_pc, State.wordsStep, specialLength]
  simp only [pcAfter, BitVec.ofNat_add]
  ring

theorem State.readA_pastWord_pc (s : State) (a : Operand) :
    (s.readA a).pastWord.pc = pcAfter s (specialLength a + 1) := by
  have hstep : (s.readA a).wordStep = s.wordStep := by
    obtain ⟨pc, sp, log, h⟩ := s.readA_frame a
    rw [h]
    rfl
  rw [pcAfter_succ, ← State.readA_pc, ← hstep]
  rfl

/-! ## Fetching where no device is mapped (R52) -/

section
variable {s : State}

theorem noDeviceMapped_of_frame (hs : noDeviceMapped s) {t : State}
    (ht : ∃ pc sp log, t = { s with pc := pc, sp := sp, busLog := s.busLog ++ log }) : noDeviceMapped t := by
  obtain ⟨pc, sp, log, rfl⟩ := ht
  exact hs

/-- Where no device is mapped, a word reads alike after PC, SP and the record of reads changed. -/
theorem State.readWord_of_frame (hs : noDeviceMapped s) {t : State}
    (ht : ∃ pc sp log, t = { s with pc := pc, sp := sp, busLog := s.busLog ++ log }) (va : Word) :
    t.readWord va = s.readWord va := by
  rw [State.readWord_eq (noDeviceMapped_of_frame hs ht _), State.readWord_eq (hs _)]
  obtain ⟨pc, sp, log, rfl⟩ := ht
  exact congrArg₂ _ (State.octet_congr (hs _) rfl rfl) (State.octet_congr (hs _) rfl rfl)

theorem State.pastWord_frame (s : State) :
    ∃ pc sp log, s.pastWord = { s with pc := pc, sp := sp, busLog := s.busLog ++ log } :=
  ⟨_, _, _, rfl⟩

/-- Where no device is mapped, the words at PC are those that lie one after the other from PC on. -/
theorem State.codeWords_of_noDeviceMapped (hs : noDeviceMapped s) :
    s.codeWords = (s.readWord s.pc, s.readWord (pcAfter s 1), s.readWord (pcAfter s 2)) := by
  have hsecond := State.readWord_of_frame hs s.pastWord_frame
  have hthird (a : Operand) := State.readWord_of_frame hs (s.readA_frame a)
  have hlast (a : Operand) (va : Word) : (s.readA a).pastWord.readWord va = s.readWord va :=
    (State.readWord_of_frame (noDeviceMapped_of_frame hs (s.readA_frame a)) (State.pastWord_frame _) va).trans
      (hthird a va)
  have hnext (c : BitVec 6) (n : Word) : specialLength (operandOfCode c n) = 1 + nextCount c := by
    rw [specialLength, operandNext_eq_replicate, List.length_replicate]
  simp only [State.codeWords, hsecond, hthird, hlast, s.pastWord_pc, State.readA_pc, State.readA_pastWord_pc, hnext]
  by_cases hc : codeHasNext (aField (s.readWord s.pc)) = true
  · simp only [nextCount, if_pos hc]
  · simp only [nextCount, if_neg hc]

end

/-- Settles O40. -/
theorem stepRunsTheDecodedInstruction : Obligations.StepRunsTheDecodedInstruction := by
  refine ⟨fun s i rest ha hskip hrun hquiet hdec => ?_, State.decode_codeBytes, fun s hs => ?_⟩
  · have hdeliver : (turned s).deliver = turned s := State.deliver_of_not_triggered (s := turned s) hquiet
    obtain ⟨rest', hfetch⟩ := (turned s).decode_codeBytes
    cases hfetch.symm.trans hdec
    rw [step, State.boundary_of_running ha hskip hrun, hdeliver]
  · simp only [State.codeBytes_eq, State.codeWords_of_noDeviceMapped hs, State.readWord_eq (hs _), octetsOf_cons,
      lowOctet_joinOctets, highOctet_joinOctets]
    rfl

end Sys2Proof.Machine
end

section
/-! The operands of 40_execution_and_operands.md: the states in which an instruction stands once its operands are handled,
the places they name and the values they have (O5, O6). -/

namespace Sys2Proof.Machine

open Sys2Proof.Safety

/-! ## Where fetches stand and what they record (R88, R52) -/

section
variable (s : State)

theorem pcAfter_add (j k : Nat) : pcAfter s (j + k) = pcAfter s j + s.wordsStep k := by
  simp only [pcAfter, State.wordsStep, BitVec.ofNat_add]
  ring

theorem fetchEvents_one : fetchEvents s 1 = s.readEvents (s.wordAddrs s.pc) := by
  simp [fetchEvents, pcAfter]

theorem fetchEvents_succ (k : Nat) :
    fetchEvents s (k + 1) = fetchEvents s k ++ s.readEvents (s.wordAddrs (pcAfter s k)) := by
  simp [fetchEvents, List.range_succ]

/-- The reads of an instruction's words, with those of an operand's next word last. -/
theorem fetchEvents_add_operandNext (k : Nat) (o : Operand) :
    fetchEvents s (k + (operandNext o).length) =
      fetchEvents s k ++ (operandNext o).flatMap fun _ => s.readEvents (s.wordAddrs (pcAfter s k)) := by
  cases o with
  | indNext r n | pick n | absolute n | literal n => simp [operandNext, fetchEvents_succ]
  | _ => simp [operandNext]

/-- The state once the first word was fetched is the one an instruction without operands leaves its handling in. -/
theorem State.pastWord_eq : s.pastWord = handledNone s := by
  rw [handledNone, fetchEvents_one, ← s.pastWord_pc]
  rfl

/-! ## The states of operand handling (R101, R103, R104) -/

theorem State.afterA_eq (a : Operand) : s.afterA a = handledA s a := by
  rw [State.afterA, State.resolveA_snd, State.pastWord_eq, handledA, specialLength, pcAfter_add,
    fetchEvents_add_operandNext, ← List.append_assoc]
  rfl

theorem State.readA_eq (a : Operand) : s.readA a = readHandledA s a := by
  rw [State.readA, State.afterA_eq]
  rfl

theorem State.afterB_eq (b a : Operand) : s.afterB b a = handledB s b a := by
  rw [State.afterB, State.resolveB_snd, State.readA_eq, handledB, basicLength, pcAfter_add]
  rfl

theorem State.readB_eq (b a : Operand) : s.readB b a = readHandledB s b a := by
  rw [State.readB, State.afterB_eq]
  rfl

theorem State.valueA_eq (a : Operand) : s.valueA a = (handledA s a).readPlace (s.placeA a) := by
  rw [State.valueA, State.afterA_eq]

theorem State.placeB_eq (b a : Operand) : s.placeB b a = ((readHandledA s a).resolveB b).1 := by
  rw [State.placeB, State.readA_eq]

theorem State.valueB_eq (b a : Operand) :
    s.valueB b a = (handledB s b a).readPlace ((readHandledA s a).resolveB b).1 := by
  rw [State.valueB, State.afterB_eq, State.placeB_eq]

end

/-- A word that lies in no device reads alike in states with the same memory, memory map and translation (R52). -/
theorem State.readWord_congr {s t : State} {va : Word} (h : noDevice s (wordOctets s va)) (hm : t.mem = s.mem)
    (hc : t.cfg = s.cfg) (hl : t.lowAddr va = s.lowAddr va) (hh : t.highAddr va = s.highAddr va) :
    t.readWord va = s.readWord va := by
  have hlow : s.kindAt (s.lowAddr va) ≠ .device := h _ (by simp [wordOctets])
  have hhigh : s.kindAt (s.highAddr va) ≠ .device := h _ (by simp [wordOctets])
  have hhigh' : t.kindAt (t.highAddr va) ≠ .device := by rwa [hh, State.kindAt, hc]
  rw [State.readWord_eq hhigh, State.readWord_eq hhigh', hl, hh, State.octet_congr hlow hm hc,
    State.octet_congr hhigh hm hc]

/-- Settles O5: the states are `afterA_eq` and `readA_eq`; the place of each form, and what is read there once a is
resolved, are then as the definition of its resolution has them. -/
theorem operandAResolves : Obligations.OperandAResolves := by
  intro s
  refine ⟨fun a => ⟨s.afterA_eq a, s.readA_eq a⟩, fun a va h => State.readWord_congr h rfl rfl rfl rfl, ?_⟩
  simp only [State.valueA_eq]
  exact ⟨fun _ => ⟨rfl, rfl⟩, fun _ => ⟨rfl, rfl⟩, fun _ _ => ⟨rfl, rfl⟩, ⟨rfl, rfl⟩, ⟨rfl, rfl⟩, fun _ => ⟨rfl, rfl⟩,
    ⟨rfl, rfl⟩, ⟨rfl, rfl⟩, ⟨rfl, rfl⟩, fun _ => ⟨rfl, rfl⟩, fun _ => ⟨rfl, rfl⟩, fun _ => ⟨rfl, rfl⟩⟩

/-- Settles O6, as O5: b is resolved in the state in which a was read. -/
theorem operandBResolves : Obligations.OperandBResolves := by
  intro s a
  refine ⟨fun b => ⟨s.afterB_eq b a, s.readB_eq b a⟩, fun b va h => State.readWord_congr h rfl rfl rfl rfl, ?_⟩
  simp only [State.placeB_eq, State.valueB_eq]
  exact ⟨fun _ => ⟨rfl, rfl⟩, fun _ => ⟨rfl, rfl⟩, fun _ _ => ⟨rfl, rfl⟩, ⟨rfl, rfl⟩, ⟨rfl, rfl⟩, fun _ => ⟨rfl, rfl⟩,
    ⟨rfl, rfl⟩, ⟨rfl, rfl⟩, ⟨rfl, rfl⟩, fun _ => ⟨rfl, rfl⟩, fun _ => ⟨rfl, rfl⟩⟩

end Sys2Proof.Machine
end

section
/-! The direct output of 40_execution_and_operands.md R106: what its place reads afterwards (O7), and that nothing else
changes (O8). -/

namespace Sys2Proof.Machine

open Sys2Proof.Safety

/-! ## The value merged under a mask -/

theorem joinOctets_and (lo hi lo' hi' : Byte) :
    joinOctets lo hi &&& joinOctets lo' hi' = joinOctets (lo &&& lo') (hi &&& hi') :=
  BitVec.and_append

theorem joinOctets_or (lo hi lo' hi' : Byte) :
    joinOctets lo hi ||| joinOctets lo' hi' = joinOctets (lo ||| lo') (hi ||| hi') :=
  BitVec.or_append

/-- The low octet of one word and the high octet of another, by the masks of R106. -/
theorem joinOctets_masks (lo hi lo' hi' : Byte) :
    (joinOctets lo' hi' &&& 0xff00) ||| (joinOctets lo hi &&& 0x00ff) = joinOctets lo hi' := by
  have hhigh : (0xff00 : Word) = joinOctets 0 (BitVec.allOnes 8) := rfl
  have hlow : (0x00ff : Word) = joinOctets (BitVec.allOnes 8) 0 := rfl
  simp only [hhigh, hlow, joinOctets_and, joinOctets_or, BitVec.and_allOnes]
  congr 1 <;> simp

theorem joinOctets_low_highOctet (v w : Word) :
    joinOctets (lowOctet v) (highOctet w) = (w &&& 0xff00) ||| (v &&& 0x00ff) := by
  simpa only [joinOctets_low_high] using (joinOctets_masks (lowOctet v) (highOctet v) (lowOctet w) (highOctet w)).symm

theorem mergeMasked_eq (mask : ByteMask) (old v : Word) :
    mergeMasked mask old v =
      if mask = .off then v
      else if mask = .protectHigh then (old &&& 0xff00) ||| (v &&& 0x00ff)
      else (old &&& 0x00ff) ||| (v &&& 0xff00) := by
  cases mask with
  | off => rfl
  | protectHigh => exact joinOctets_low_highOctet v old
  | protectLow => exact (joinOctets_low_highOctet old v).trans (BitVec.or_comm _ _)

/-! ## What the place reads -/

section
variable {s : State}

/-- A word in RAM reads as the new value merged into the old one (R106, R47). -/
theorem State.readWord_writeMasked {va : Word} (h : ramWord s va) (mask : ByteMask) (v : Word) :
    (s.writeMasked mask va v).readWord va = mergeMasked mask (s.readWord va) v := by
  obtain ⟨hl, hh⟩ := h
  have hlow : (s.writeMasked mask va v).lowAddr va = s.lowAddr va := by cases mask <;> rfl
  have hhigh : (s.writeMasked mask va v).highAddr va = s.highAddr va := by cases mask <;> rfl
  have hkind : (s.writeMasked mask va v).kindAt (s.highAddr va) = .ram := by cases mask <;> exact hh
  rw [State.readWord_eq (by rw [hhigh, hkind]; nofun), State.readWord_eq (by rw [hh]; nofun), hlow, hhigh,
    State.octet_writeMasked s mask v va _ (fun _ => hl) (fun _ => hh),
    State.octet_writeMasked s mask v va _ (fun _ => hl) (fun _ => hh)]
  cases mask <;> simp [mergeMasked, s.lowAddr_ne_highAddr va, (s.lowAddr_ne_highAddr va).symm]

/-- A place other than a literal reads as the new value merged into its old one (R106). -/
theorem State.readPlace_writeOp {p : Place} (hlit : ∀ n, p ≠ .lit n) (hram : ∀ va, p = .mem va → ramWord s va)
    (mask : ByteMask) (v : Word) : (s.writeOp mask p v).readPlace p = mergeMasked mask (s.readPlace p) v := by
  cases p with
  | mem va => exact State.readWord_writeMasked (hram va rfl) mask v
  | reg r => exact s.reg_setReg_self r _
  | lit n => exact absurd rfl (hlit n)
  | sp | pc | ex => rfl

/-! ## What a direct output leaves alone -/

theorem State.writeOp_reg {p : Place} {r : Reg} (hp : p ≠ .reg r) (mask : ByteMask) (v : Word) :
    (s.writeOp mask p v).reg r = s.reg r := by
  cases p with
  | reg q => exact s.reg_setReg_ne (fun e => hp (congrArg Place.reg e.symm)) _
  | mem va => cases mask <;> rfl
  | _ => rfl

theorem State.writeOp_sp {p : Place} (hp : p ≠ .sp) (mask : ByteMask) (v : Word) :
    (s.writeOp mask p v).sp = s.sp := by
  cases p with
  | sp => exact absurd rfl hp
  | mem va => exact s.writeMasked_sp mask v va
  | _ => rfl

theorem State.writeOp_pc {p : Place} (hp : p ≠ .pc) (mask : ByteMask) (v : Word) :
    (s.writeOp mask p v).pc = s.pc := by
  cases p with
  | pc => exact absurd rfl hp
  | mem va => exact s.writeMasked_pc mask v va
  | _ => rfl

/-- The octets a direct output to memory stores, one for each octet the mask leaves. -/
theorem mem_storedOctets {mask : ByteMask} {va : Word} {q : PAddr} :
    q ∈ storedOctets s mask (.mem va) ↔
      q = s.lowAddr va ∧ mask ≠ .protectLow ∨ q = s.highAddr va ∧ mask ≠ .protectHigh := by
  cases mask <;> simp [storedOctets]

/-- A direct output to RAM leaves every octet it does not store to as it was (R47). -/
theorem State.octet_writeOp {mask : ByteMask} {p : Place} (hram : allRam s (storedOctets s mask p)) {q : PAddr}
    (hq : q ∉ storedOctets s mask p) (v : Word) : (s.writeOp mask p v).octet q = s.octet q := by
  cases p with
  | mem va =>
    rw [mem_storedOctets, not_or] at hq
    obtain ⟨hlow, hhigh⟩ := hq
    have h := State.octet_writeMasked s mask v va q (fun hm => hram _ (mem_storedOctets.2 (.inl ⟨rfl, hm⟩)))
      (fun hm => hram _ (mem_storedOctets.2 (.inr ⟨rfl, hm⟩)))
    rwa [if_neg hlow, if_neg hhigh] at h
  | _ => rfl

/-- A direct output to RAM makes no transaction. -/
theorem State.busLog_writeOp {mask : ByteMask} {p : Place} (hram : allRam s (storedOctets s mask p)) (v : Word) :
    (s.writeOp mask p v).busLog = s.busLog := by
  cases p with
  | mem va =>
    cases mask with
    | off => exact State.busLog_writeWord (hram _ (by simp [storedOctets])) (hram _ (by simp [storedOctets])) v
    | protectHigh | protectLow => exact if_pos (hram _ (by simp [storedOctets]))
  | _ => rfl

end

/-- Settles O7. -/
theorem directOutputUnderMask : Obligations.DirectOutputUnderMask := by
  intro s mask p v
  refine ⟨fun _ => rfl, fun hlit hram => ?_⟩
  rw [State.readPlace_writeOp hlit hram, mergeMasked_eq]

/-- Settles O8. -/
theorem directOutputChangesOnlyItsPlace : Obligations.DirectOutputChangesOnlyItsPlace := fun s mask p v =>
  ⟨fun _ hp => State.writeOp_reg hp mask v, fun hp => State.writeOp_sp hp mask v, fun hp => State.writeOp_pc hp mask v,
    fun hp => State.writeOp_ex hp mask v, s.writeOp_byt mask p v,
    (sameSystem_iff _ _).2 (s.writeOp_system mask p v),
    fun hram => ⟨fun _ hq => State.octet_writeOp hram hq v, State.busLog_writeOp hram v⟩⟩

end Sys2Proof.Machine
end

section
/-! The stack (R114; O12), and a waiting message taken at the boundary of a running CPU (R100, R308, R310, R311; O41). -/

namespace Sys2Proof.Machine

open Sys2Proof.Safety

/-! ## Stack addresses -/

section
variable (s : State) (sp : Word)

theorem below_succ (k : Nat) : below s sp (k + 1) = below s sp k - s.wordStep := by
  rw [below, below, BitVec.ofNat_add, BitVec.add_mul, BitVec.one_mul, sub_add_eq_sub_sub]

theorem below_sub_wordStep (k : Nat) : below s (sp - s.wordStep) k = below s sp (k + 1) := by
  rw [below_succ]
  exact sub_right_comm _ _ _

theorem below_one : below s sp 1 = sp - s.wordStep := by
  rw [below_succ]
  simp [below]

theorem below_two : below s sp 2 = sp - s.wordStep - s.wordStep := by
  rw [below_succ, below_one]

theorem below_three : below s sp 3 = sp - s.wordStep - s.wordStep - s.wordStep := by
  rw [below_succ, below_two]

end

/-- Settles O12. -/
theorem pushThenPop : Obligations.PushThenPop := by
  intro s v
  refine ⟨rfl, fun ⟨hl, hh⟩ => ⟨State.readWord_writeWord_self (s := s.setSp _) hl hh v, ?_⟩, ?_, s.pop_eq⟩
  · rw [s.pop_push v hl hh]
  · exact BitVec.sub_add_cancel s.sp s.wordStep

/-! ## Taking a message -/

section
variable {s : State} {m : Word}

/-- An interrupt entry is the two pushes and the four fields R310 names. -/
theorem State.interruptEntry_eq_enteredInterrupt : s.interruptEntry m = enteredInterrupt s m := by
  rw [enteredInterrupt, below_two, below_one]
  rfl

/-- With queuing off and no mask the oldest message is entered where IA is not 0, and dropped where it is. -/
theorem State.deliver_of_triggered {q : List Word} (hiq : s.iq = m :: q) (hqf : s.qf = false) (hbyt : s.byt = .off) :
    s.deliver = if s.ia = 0 then s.setIq q else enteredInterrupt (s.setIq q) m := by
  simp only [State.deliver, hiq, hqf, hbyt, and_self, if_true, ite_not, State.interruptEntry_eq_enteredInterrupt]

end

/-- Settles O41. -/
theorem stepTakesTheOldestInterrupt : Obligations.StepTakesTheOldestInterrupt := by
  intro s m q ha hskip hrun hiq hqf hbyt t u
  have hdeliver : (turned s).deliver = u := State.deliver_of_triggered (s := turned s) hiq hqf hbyt
  rw [step, State.boundary_of_running ha hskip hrun, hdeliver]

end Sys2Proof.Machine
end

section
/-! What instructions with a direct output keep (R101, R106, R107, R113, R161): those that write b and at most EX (O47), and
the special ones that write their operand (O49). -/

namespace Sys2Proof.Machine

open Sys2Proof.Safety

/-! ## What handling the operands keeps (R101) -/

/-- `u` is `s` with PC and SP moved, and reads recorded of words in devices only. -/
def Handled (s u : State) (pc sp : Word) : Prop :=
  ∃ log, u = { s with pc := pc, sp := sp, busLog := s.busLog ++ log } ∧ (noDeviceMapped s → log = [])

section
variable {s : State}

theorem State.readEvents_of_noDeviceMapped (h : noDeviceMapped s) (l : List PAddr) : s.readEvents l = [] := by
  simpa [State.readEvents] using fun q _ => h q

theorem fetchEvents_of_noDeviceMapped (h : noDeviceMapped s) (k : Nat) : fetchEvents s k = [] := by
  simp [fetchEvents, State.readEvents_of_noDeviceMapped h]

theorem Handled.noteRead {u : State} {pc sp : Word} (h : Handled s u pc sp) (l : List PAddr) :
    Handled s (u.noteRead l) pc sp := by
  obtain ⟨log, rfl, hlog⟩ := h
  refine ⟨log ++ s.readEvents l, ?_, fun hdev => ?_⟩
  · rw [← List.append_assoc]
    rfl
  · rw [hlog hdev, State.readEvents_of_noDeviceMapped hdev, List.append_nil]

variable (s)

theorem State.afterA_handled (a : Operand) : Handled s (s.afterA a) (pcAfter s (specialLength a)) (spAfterA s a) :=
  ⟨_, s.afterA_eq a, fun h => fetchEvents_of_noDeviceMapped h _⟩

theorem State.readA_handled (a : Operand) : Handled s (s.readA a) (pcAfter s (specialLength a)) (spAfterA s a) :=
  (s.afterA_handled a).noteRead _

theorem State.afterB_handled (b a : Operand) :
    Handled s (s.afterB b a) (pcAfter s (basicLength b a)) (spAfterB s b a) := by
  obtain ⟨log, hread, hlog⟩ := s.readA_handled a
  refine ⟨log ++ (operandNext b).flatMap fun _ => s.readEvents (s.wordAddrs (pcAfter s (specialLength a))), ?_, ?_⟩
  · rw [s.afterB_eq, handledB, ← s.readA_eq, hread, List.append_assoc]
  · intro hdev
    simp [hlog hdev, State.readEvents_of_noDeviceMapped hdev]

theorem State.readB_handled (b a : Operand) :
    Handled s (s.readB b a) (pcAfter s (basicLength b a)) (spAfterB s b a) :=
  (s.afterB_handled b a).noteRead _

end

/-! ## What a direct output at the end of an instruction keeps (R106) -/

/-- All but the place `p` of its direct output is kept by an instruction from `s` to `t` that leaves PC and SP at `pc` and
`sp`; EX too unless `ex` says that it is a second output. Memory and the record are kept where the output goes to RAM. -/
structure OutputFrame (s t : State) (p : Place) (pc sp : Word) (ex : Bool) : Prop where
  reg : ∀ r, p ≠ .reg r → t.reg r = s.reg r
  sp : p ≠ .sp → t.sp = sp
  pc : p ≠ .pc → t.pc = pc
  ex : p ≠ .ex → ex = false → t.ex = s.ex
  byt : t.byt = .off
  system : sameSystem s t
  ram : allRam s (storedOctets s s.byt p) →
    (∀ q, q ∉ storedOctets s s.byt p → s.kindAt q ≠ .device → t.octet q = s.octet q) ∧
      (noDeviceMapped s → t.busLog = s.busLog)

section
variable {s u : State} {pc sp : Word}

/-- Where a direct output goes to RAM, no other octet of memory changes, and handling operands only adds to the record
what devices were read (R47, R52). -/
theorem Handled.ram_writeOp (h : Handled s u pc sp) {mask : ByteMask} {p : Place}
    (hram : allRam s (storedOctets s mask p)) (v : Word) :
    (∀ q, q ∉ storedOctets s mask p → s.kindAt q ≠ .device → (u.writeOp mask p v).octet q = s.octet q) ∧
      (noDeviceMapped s → (u.writeOp mask p v).busLog = s.busLog) := by
  obtain ⟨log, hu, hlog⟩ := h
  have hstored : storedOctets u mask p = storedOctets s mask p := by
    rw [hu]
    rfl
  have hram' : allRam u (storedOctets u mask p) := by
    rw [hstored, hu]
    exact hram
  refine ⟨fun q hq hdev => ?_, fun hnone => ?_⟩
  · rw [State.octet_writeOp hram' (hstored ▸ hq), hu]
    exact State.octet_congr hdev rfl rfl
  · rw [State.busLog_writeOp hram', hu, hlog hnone, List.append_nil]

theorem Handled.outputFrame (h : Handled s u pc sp) (p : Place) (v : Word) (ex : Bool) :
    OutputFrame s (u.writeOp s.byt p v).endInstr p pc sp ex := by
  have hram (hstored : allRam s (storedOctets s s.byt p)) := h.ram_writeOp hstored v
  obtain ⟨log, rfl, -⟩ := h
  exact
    { reg := fun _ hp => State.writeOp_reg hp _ v
      sp := fun hp => State.writeOp_sp hp _ v
      pc := fun hp => State.writeOp_pc hp _ v
      ex := fun hp _ => State.writeOp_ex hp _ v
      byt := rfl
      system := (sameSystem_iff _ _).2 (State.writeOp_system _ _ p v)
      ram := hram }

/-- EX written after the direct output. -/
theorem OutputFrame.setEx {p : Place} {ex : Bool} (h : OutputFrame s u p pc sp ex) (e : Word) :
    OutputFrame s (u.setEx e) p pc sp true :=
  { h with ex := nofun }

end

/-! ## The shapes of R101 -/

section
variable (s : State) (b a : Operand) (ex : Bool)

theorem State.moveOp_outputFrame :
    OutputFrame s (s.moveOp b a) (s.placeB b a) (pcAfter s (basicLength b a)) (spAfterB s b a) ex :=
  (s.afterB_handled b a).outputFrame _ _ ex

theorem State.basicOp_outputFrame (res : Word → Word → Word) :
    OutputFrame s (s.basicOp res b a) (s.placeB b a) (pcAfter s (basicLength b a)) (spAfterB s b a) ex :=
  (s.readB_handled b a).outputFrame _ _ ex

theorem State.basicOpEx_outputFrame (res exRes : Word → Word → Word) :
    OutputFrame s (s.basicOpEx res exRes b a) (s.placeB b a) (pcAfter s (basicLength b a)) (spAfterB s b a) true :=
  (s.basicOp_outputFrame b a false res).setEx _

theorem State.specialReadWrite_outputFrame (v : Word) :
    OutputFrame s (s.specialReadWrite v a) (s.placeA a) (pcAfter s (specialLength a)) (spAfterA s a) ex :=
  (s.readA_handled a).outputFrame _ v ex

theorem State.specialWrite_outputFrame (v : Word) :
    OutputFrame s (s.specialWrite v a) (s.placeA a) (pcAfter s (specialLength a)) (spAfterA s a) ex :=
  (s.afterA_handled a).outputFrame _ v ex

end

/-! ## The instructions -/

theorem exec_outputFrame_basic {s t : State} {b a : Operand} {i : Instr}
    (hi : i ∈ [.set b a, .mod b a, .mdi b a, .and b a, .bor b a, .xor b a, .add b a, .sub b a, .mul b a, .mli b a,
      .div b a, .dvi b a, .shr b a, .asr b a, .shl b a, .adx b a, .sbx b a])
    (h : exec i s = .next t) :
    OutputFrame s t (s.placeB b a) (pcAfter s (basicLength b a)) (spAfterB s b a) (writesEx i) := by
  cases i with
  | set d c =>
    obtain ⟨rfl, rfl⟩ : d = b ∧ c = a := by simpa using hi
    cases h
    exact s.moveOp_outputFrame d c false
  | mod d c | mdi d c | and d c | bor d c | xor d c =>
    obtain ⟨rfl, rfl⟩ : d = b ∧ c = a := by simpa using hi
    cases h
    exact s.basicOp_outputFrame d c false _
  | add d c | sub d c | mul d c | mli d c | div d c | dvi d c | shr d c | asr d c | shl d c | adx d c | sbx d c =>
    obtain ⟨rfl, rfl⟩ : d = b ∧ c = a := by simpa using hi
    cases h
    exact s.basicOpEx_outputFrame d c _ _
  | _ => simp at hi

theorem exec_outputFrame_special {s t : State} {a : Operand} {i : Instr}
    (hi : i ∈ [.neg a, .sxb a, .swp a, .iag a, .omg a, .ovg a, .mmr a]) (h : exec i s = .next t) :
    OutputFrame s t (s.placeA a) (pcAfter s (specialLength a)) (spAfterA s a) false := by
  cases i with
  | neg c | sxb c | swp c | mmr c =>
    obtain rfl : c = a := by simpa using hi
    cases h
    exact s.specialReadWrite_outputFrame c false _
  | iag c | omg c | ovg c =>
    obtain rfl : c = a := by simpa using hi
    cases h
    exact s.specialWrite_outputFrame c false _
  | _ => simp at hi

/-- Settles O47. -/
theorem basicOutputFrame : Obligations.BasicOutputFrame := fun _ _ _ _ _ hi h =>
  have f := exec_outputFrame_basic hi h
  ⟨f.reg, f.sp, f.pc, f.ex, f.byt, f.system, f.ram⟩

/-- Settles O49. -/
theorem specialOutputFrame : Obligations.SpecialOutputFrame := fun _ _ _ _ hi h =>
  have f := exec_outputFrame_special hi h
  ⟨f.reg, f.sp, f.pc, fun hp => f.ex hp rfl, f.byt, f.system, f.ram⟩

end Sys2Proof.Machine
end

section
/-! Which octets of memory an instruction without a direct output can change: those of the words a call pushes, and those
the heater or a reset sets (R113, R114, R200, R201, R206, R264, R320, R353; O50). -/

namespace Sys2Proof.Machine

open Sys2Proof.Safety

/-! ## Operations that leave memory as it is -/

section
variable (s : State)

@[simp] theorem State.readA_mem (a : Operand) : (s.readA a).mem = s.mem := by
  rw [s.readA_eq]
  rfl

theorem State.readA_cfg (a : Operand) : (s.readA a).cfg = s.cfg :=
  congrArg System.cfg (s.readA_system a)

@[simp] theorem State.readB_mem (b a : Operand) : (s.readB b a).mem = s.mem := by
  rw [s.readB_eq]
  rfl

@[simp] theorem State.skipChain_mem : s.skipChain.mem = s.mem := by
  obtain ⟨pc, skip, byt, log, h⟩ := s.skipChain_frame
  rw [h]

@[simp] theorem State.conditionalOp_mem (test : Word → Word → Bool) (b a : Operand) :
    (s.conditionalOp test b a).mem = s.mem := by
  unfold State.conditionalOp
  split <;> simp

@[simp] theorem State.endInstr_mem : s.endInstr.mem = s.mem := rfl

@[simp] theorem State.interruptReturn_mem : s.interruptReturn.mem = s.mem := rfl

@[simp] theorem State.osVectorReturn_mem : s.osVectorReturn.mem = s.mem := rfl

@[simp] theorem State.switchMode_mem (key : Word) : (s.switchMode key).mem = s.mem := by
  unfold State.switchMode
  split
  · rfl
  · split <;> rfl

end

/-! ## Octets the heater sets (D21) -/

theorem changedOctets_subset_cons (c : StateChange) (cs : List StateChange) :
    changedOctets cs ⊆ changedOctets (c :: cs) := by
  rw [changedOctets, changedOctets, List.flatMap_cons]
  exact List.subset_append_right _ _

theorem State.read_mem_changeAll (s : State) {cs : List StateChange} {q : PAddr} (h : q ∉ changedOctets cs) :
    (s.changeAll cs).mem.read q.toNat = s.mem.read q.toNat := by
  induction cs generalizing s with
  | nil => rfl
  | cons c cs ih =>
    have hchange : (s.change c).mem.read q.toNat = s.mem.read q.toNat := by
      cases c with
      | octet p v =>
        have hp : q ≠ p := fun e => h (e ▸ List.mem_cons_self)
        exact Memory.read_writeAll_of_not_mem s.mem [(p, v)] q (by simpa using hp)
      | _ => rfl
    exact (ih (s.change c) fun hq => h (changedOctets_subset_cons c cs hq)).trans hchange

/-- HCF changes at most the octets the heater sets. -/
theorem State.read_mem_setHeater {s : State} {a : Operand} {q : PAddr} (h : q ∉ platformStores s (.hcf a)) :
    ((s.readA a).setHeater (s.valueA a)).mem.read q.toNat = s.mem.read q.toNat := by
  rw [s.readA_eq]
  exact (heaterSet s a).read_mem_changeAll h

/-! ## Octets of pushed words (R114) -/

/-- The `k`-th word below SP lies in RAM and does not hold the octet at `q`. -/
def PushSpares (s : State) (q : PAddr) (k : Nat) : Prop :=
  allRam s (wordOctets s (below s s.sp k)) ∧ q ∉ wordOctets s (below s s.sp k)

@[simp] theorem State.octet_endInstr (s : State) (q : PAddr) : s.endInstr.octet q = s.octet q := rfl

section
variable {s : State} {q : PAddr}

theorem State.octet_push (h : PushSpares s q 1) (v : Word) : (s.push v).octet q = s.octet q := by
  obtain ⟨hram, hq⟩ := h
  rw [below_one] at hram hq
  simp only [wordOctets, List.mem_cons, List.not_mem_nil, or_false, not_or] at hq
  obtain ⟨hqlow, hqhigh⟩ := hq
  have hlow : s.kindAt (s.lowAddr (s.sp - s.wordStep)) = .ram := hram _ (by simp [wordOctets])
  have hhigh : s.kindAt (s.highAddr (s.sp - s.wordStep)) = .ram := hram _ (by simp [wordOctets])
  rw [State.push, State.octet_writeWord (s := s.setSp (s.sp - s.wordStep)) hlow hhigh, State.lowAddr_setSp,
    State.highAddr_setSp, if_neg hqlow, if_neg hqhigh, State.octet_setSp]

/-- After a push the words below SP are those that were one word further below. -/
theorem PushSpares.push {k : Nat} (h : PushSpares s q (k + 1)) (v : Word) : PushSpares (s.push v) q k := by
  rw [PushSpares, ← below_sub_wordStep] at h
  exact h

theorem State.pushSpares_readA {a : Operand} {k : Nat} :
    PushSpares (s.readA a) q k ↔
      allRam s (wordOctets s (below s (spAfterA s a) k)) ∧ q ∉ wordOctets s (below s (spAfterA s a) k) := by
  rw [s.readA_eq]
  rfl

theorem State.octet_push_three (h : ∀ k ∈ [1, 2, 3], PushSpares s q k) (x y z : Word) :
    (((s.push x).push y).push z).octet q = s.octet q := by
  have hfirst : PushSpares s q 1 := h 1 (by simp)
  have hsecond : PushSpares s q 2 := h 2 (by simp)
  have hthird : PushSpares s q 3 := h 3 (by simp)
  calc (((s.push x).push y).push z).octet q
      = ((s.push x).push y).octet q := State.octet_push ((hthird.push x).push y) z
    _ = (s.push x).octet q := State.octet_push (hsecond.push x) y
    _ = s.octet q := State.octet_push hfirst x

/-- An OS vector call changes the three words it pushes, and nothing with OVA = 0 (R320, R321). -/
theorem State.octet_osVectorCall (h : s.ova = 0 ∨ ∀ k ∈ [1, 2, 3], PushSpares s q k) (n m : Word) :
    (s.osVectorCall n m).octet q = s.octet q := by
  by_cases hova : s.ova = 0
  · rw [State.osVectorCall_of_eq_zero hova]
  · have hpushes := State.octet_push_three (h.resolve_left hova) s.pc (s.reg .a) (s.reg .b)
    rw [State.osVectorCall_of_ne_zero hova, State.octet_setReg, State.octet_setReg]
    exact hpushes

end

/-! ## The instructions -/

/-- An octet of RAM or ROM reads as before where its cell of memory does. -/
theorem State.octet_eq_of_read_mem {s t : State} {q : PAddr} (h : s.kindAt q ≠ .device) (hc : t.cfg = s.cfg)
    (hm : t.mem.read q.toNat = s.mem.read q.toNat) : t.octet q = s.octet q := by
  have ht : t.kindAt q ≠ .device := by rwa [State.kindAt, hc]
  rw [State.octet_of_not_device h, State.octet_of_not_device ht, hm]

theorem exec_mem_of_storesNothing {i : Instr} {s t : State} (hi : storesNothing i = true) (h : exec i s = .next t)
    (hsfr : ∀ v, i ≠ .sfr v) (hhcf : ∀ a, i ≠ .hcf a) : t.mem = s.mem := by
  cases i with
  | ifb b a | ifc b a | ife b a | ifn b a | ifg b a | ifa b a | ifl b a | ifu b a =>
    cases h
    exact s.conditionalOp_mem _ b a
  | hww b a => cases h; exact s.readB_mem b a
  | ias a | iaq a | mmw a | oms a | ovs a => cases h; exact s.readA_mem a
  | rfi a | rfo a | cme a => cases h; simp
  | int a =>
    obtain ⟨-, rfl⟩ := finishEnqueue_eq_next h
    exact s.readA_mem a
  | hlt v => rcases execHlt_eq_next (v := v) h with ⟨-, -, rfl⟩ | ⟨-, rfl⟩ <;> rfl
  | slp v | byt v => cases h; rfl
  | skp v => cases h; exact s.pastWord.skipChain_mem
  | sfr v => exact absurd rfl (hsfr v)
  | hcf a => exact absurd rfl (hhcf a)
  | _ => cases hi

theorem exec_read_mem_of_storesNothing {i : Instr} {s t : State} {q : PAddr} (hi : storesNothing i = true)
    (h : exec i s = .next t) (hq : q ∉ platformStores s i) : t.mem.read q.toNat = s.mem.read q.toNat := by
  cases i with
  | hcf a => cases h; exact State.read_mem_setHeater hq
  | sfr v => cases h; exact Memory.read_writeAll_of_not_mem _ _ q hq
  | _ => rw [exec_mem_of_storesNothing hi h nofun nofun]

theorem exec_octet_of_jsr_bsr {s t : State} {a : Operand} {i : Instr} {q : PAddr} (hi : i ∈ [.jsr a, .bsr a])
    (h : exec i s = .next t) (hdev : s.kindAt q ≠ .device) (hq : PushSpares (s.readA a) q 1) :
    t.octet q = s.octet q := by
  have hpush (v : Word) : ((s.readA a).push v).octet q = s.octet q :=
    (State.octet_push hq v).trans (State.octet_congr hdev (s.readA_mem a) (s.readA_cfg a))
  cases i with
  | jsr c | bsr c =>
    obtain rfl : c = a := by simpa using hi
    cases h
    rw [State.octet_endInstr, State.octet_setPc]
    exact hpush _
  | _ => simp at hi

theorem exec_octet_of_osVectorCall {s t : State} {a : Operand} {i : Instr} {q : PAddr}
    (hi : i ∈ [.osn a, .osq a, .osi a, .osr a]) (h : exec i s = .next t) (hdev : s.kindAt q ≠ .device)
    (hq : (s.readA a).ova = 0 ∨ ∀ k ∈ [1, 2, 3], PushSpares (s.readA a) q k) : t.octet q = s.octet q := by
  have hcall (n m : Word) : ((s.readA a).osVectorCall n m).octet q = s.octet q :=
    (State.octet_osVectorCall hq n m).trans (State.octet_congr hdev (s.readA_mem a) (s.readA_cfg a))
  cases i with
  | osn c | osq c | osi c | osr c =>
    obtain rfl : c = a := by simpa using hi
    cases h
    rw [State.octet_endInstr]
    exact hcall _ _
  | _ => simp at hi

/-- Settles O50: calls push from where `a` leaves SP, and the other instructions keep memory but for the platform's
stores. -/
theorem memoryOutsideStoresIsKept : Obligations.MemoryOutsideStoresIsKept := by
  refine ⟨fun i s t q hi h hq hdev => ?_, fun s t a i q hi h hram hdev hq => ?_, fun s t a i q hi h hdev hcall => ?_⟩
  · obtain ⟨hcfg, -, -⟩ := (exec_systemChange h).platform
    exact State.octet_eq_of_read_mem hdev hcfg (exec_read_mem_of_storesNothing hi h hq)
  · exact exec_octet_of_jsr_bsr hi h hdev (State.pushSpares_readA.2 ⟨hram, hq⟩)
  · refine exec_octet_of_osVectorCall hi h hdev (hcall.imp ?_ fun hk k hmem => State.pushSpares_readA.2 (hk k hmem))
    exact (congrArg System.ova (s.readA_system a)).trans

end Sys2Proof.Machine
end

section
/-! What the instructions of 41_basic_alu.md answer: the computed words in the terms of 16 and 32 bits (R140 to R156),
and each instruction's whole next state (O13 to O21). -/

namespace Sys2Proof.Machine

open Sys2Proof.Safety

/-! ## Narrowing (R161) -/

theorem narrow_eq_narrowInt (t : Nat) : narrow t = narrowInt t := (BitVec.ofInt_natCast 16 t).symm

@[simp] theorem narrow_toNat (w : Word) : narrow w.toNat = w := w.ofNat_toNat 16

@[simp] theorem narrowInt_toInt (w : Word) : narrowInt w.toInt = w := BitVec.ofInt_toInt

@[simp] theorem narrowInt_toNat (w : Word) : narrowInt w.toNat = w := by rw [← narrow_eq_narrowInt, narrow_toNat]

theorem narrowInt_add (x y : Int) : narrowInt (x + y) = narrowInt x + narrowInt y := BitVec.ofInt_add x y

theorem narrowInt_sub (x y : Int) : narrowInt (x - y) = narrowInt x - narrowInt y := by
  rw [narrowInt, sub_eq_add_neg, BitVec.ofInt_add, BitVec.ofInt_neg]
  exact (sub_eq_add_neg _ _).symm

/-! ## The two words of a 32-bit number -/

theorem lowWord_ofInt (t : Int) : (BitVec.ofInt 32 t).extractLsb' 0 16 = narrowInt t := by
  apply BitVec.eq_of_toNat_eq
  rw [BitVec.extractLsb'_toNat, narrowInt, BitVec.toNat_ofInt, BitVec.toNat_ofInt]
  omega

theorem highWord_ofInt (t : Int) : (BitVec.ofInt 32 t).extractLsb' 16 16 = narrowInt (t >>> (16 : Nat)) := by
  apply BitVec.eq_of_toNat_eq
  rw [BitVec.extractLsb'_toNat, narrowInt, BitVec.toNat_ofInt, BitVec.toNat_ofInt, Int.shiftRight_eq_div_pow]
  omega

theorem lowWord_ofNat (t : Nat) : (BitVec.ofNat 32 t).extractLsb' 0 16 = narrow t := by
  rw [← BitVec.ofInt_natCast, lowWord_ofInt, narrow_eq_narrowInt]

theorem highWord_ofNat (t : Nat) : (BitVec.ofNat 32 t).extractLsb' 16 16 = narrow (t >>> 16) := by
  rw [← BitVec.ofInt_natCast, highWord_ofInt, narrow_eq_narrowInt, Int.natCast_shiftRight]

theorem lowWord_eq_narrow (t : BitVec 32) : t.extractLsb' 0 16 = narrow t.toNat := by
  rw [← lowWord_ofNat, BitVec.ofNat_toNat, BitVec.setWidth_eq]

theorem highWord_eq_narrow (t : BitVec 32) : t.extractLsb' 16 16 = narrow (t.toNat >>> 16) := by
  rw [← highWord_ofNat, BitVec.ofNat_toNat, BitVec.setWidth_eq]

section
variable (b a : Word)

/-! ## Addition and subtraction -/

theorem addRes_eq : addRes b a = b + a := by
  rw [addRes, narrow_eq_narrowInt, Nat.cast_add, narrowInt_add, narrowInt_toNat, narrowInt_toNat]

theorem addEx_eq : addEx b a = if 65536 ≤ (b.toNat : Int) + a.toNat then 0x0001 else 0x0000 :=
  if_congr (by omega) rfl rfl

theorem subRes_eq : subRes b a = b - a := by
  rw [subRes, narrowInt_sub, narrowInt_toNat, narrowInt_toNat]

theorem subEx_eq : subEx b a = if b.toNat < a.toNat then 0xffff else 0x0000 :=
  if_congr (by omega) rfl rfl

section
variable (signed : Bool) (ex : Word)

/-- The old EX is the same word however it is read (D9). -/
theorem narrowInt_exInput : narrowInt (exInput signed ex) = ex := by
  cases signed with
  | true => exact narrowInt_toInt ex
  | false => exact narrowInt_toNat ex

theorem adxRes_eq : adxRes signed ex b a = b + a + ex := by
  rw [adxRes, adxSum, narrowInt_add, narrowInt_add, narrowInt_exInput, narrowInt_toNat, narrowInt_toNat]

theorem adxEx_eq : adxEx signed ex b a = if 65536 ≤ adxSum signed ex b a then 0x0001 else 0x0000 := rfl

theorem sbxRes_eq : sbxRes signed ex b a = b - a + ex := by
  rw [sbxRes, sbxSum, narrowInt_add, narrowInt_sub, narrowInt_exInput, narrowInt_toNat, narrowInt_toNat]

theorem sbxEx_eq : sbxEx signed ex b a =
    if sbxSum signed ex b a < 0 then 0xffff else if 65536 ≤ sbxSum signed ex b a then 0x0001 else 0x0000 := rfl

end

/-! ## Operands of 32 bits -/

theorem toNat_append_zeros : (b ++ 0#16 : BitVec 32).toNat = b.toNat <<< 16 := by
  rw [BitVec.toNat_append, BitVec.toNat_zero, Nat.or_zero]

theorem toInt_append_zeros : (b ++ 0#16 : BitVec 32).toInt = b.toInt * 65536 := by
  rw [BitVec.toInt_append, mul_comm]
  simp

theorem toNat_setWidth_32 : (a.setWidth 32).toNat = a.toNat := BitVec.toNat_setWidth_of_le (by decide)

theorem toInt_signExtend_32 : (a.signExtend 32).toInt = a.toInt := BitVec.toInt_signExtend_of_le (by decide)

/-! ## Multiplication -/

theorem mul_setWidth_32 : b.setWidth 32 * a.setWidth 32 = BitVec.ofNat 32 (b.toNat * a.toNat) := by
  rw [BitVec.ofNat_mul, BitVec.ofNat_toNat, BitVec.ofNat_toNat]

theorem mul_signExtend_32 : b.signExtend 32 * a.signExtend 32 = BitVec.ofInt 32 (b.toInt * a.toInt) := by
  rw [BitVec.ofInt_mul, BitVec.signExtend, BitVec.signExtend]

theorem mulRes_eq : mulRes b a = (b.setWidth 32 * a.setWidth 32).extractLsb' 0 16 := by
  rw [mul_setWidth_32, lowWord_ofNat, mulRes]

theorem mulEx_eq : mulEx b a = (b.setWidth 32 * a.setWidth 32).extractLsb' 16 16 := by
  rw [mul_setWidth_32, highWord_ofNat, mulEx]

theorem mliRes_eq : mliRes b a = (b.signExtend 32 * a.signExtend 32).extractLsb' 0 16 := by
  rw [mul_signExtend_32, lowWord_ofInt, mliRes]

theorem mliEx_eq : mliEx b a = (b.signExtend 32 * a.signExtend 32).extractLsb' 16 16 := by
  rw [mul_signExtend_32, highWord_ofInt, ← Int.shiftRight_natCast_right]
  rfl

/-! ## Division and remainder -/

/-- The signed quotient as the unbounded one wraps it: -2^(w-1) / -1 too (D10). -/
theorem sdiv_eq_ofInt {w : Nat} (x y : BitVec w) : x.sdiv y = BitVec.ofInt w (x.toInt.tdiv y.toInt) := by
  apply BitVec.eq_of_toInt_eq
  rw [BitVec.toInt_sdiv, BitVec.toInt_ofInt]

theorem divRes_eq : divRes b a = if a = 0 then 0 else b / a := by
  rw [divRes, ← BitVec.toNat_udiv, narrow_toNat]

theorem divEx_eq :
    divEx b a = if a = 0 then 0 else ((b ++ 0#16 : BitVec 32) / a.setWidth 32).extractLsb' 0 16 := by
  rw [lowWord_eq_narrow, BitVec.toNat_udiv, toNat_append_zeros, toNat_setWidth_32, divEx]

theorem dviRes_eq : dviRes b a = if a = 0 then 0 else b.sdiv a := by
  rw [sdiv_eq_ofInt]
  rfl

theorem dviEx_eq :
    dviEx b a = if a = 0 then 0 else ((b ++ 0#16 : BitVec 32).sdiv (a.signExtend 32)).extractLsb' 0 16 := by
  rw [sdiv_eq_ofInt, lowWord_ofInt, toInt_append_zeros, toInt_signExtend_32, dviEx]

theorem modRes_eq : modRes b a = if a = 0 then 0 else b % a := by
  rw [modRes, ← BitVec.toNat_umod, narrow_toNat]

theorem mdiRes_eq : mdiRes b a = if a = 0 then 0 else b.srem a := by
  rw [mdiRes, ← Int.tmod_def, ← BitVec.toInt_srem, narrowInt_toInt]

/-! ## Shifts (D8) -/

theorem shrRes_eq : shrRes b a = ((b ++ 0#16 : BitVec 32) >>> a.toNat).extractLsb' 16 16 := by
  rw [highWord_eq_narrow, BitVec.toNat_ushiftRight, toNat_append_zeros, ← Nat.shiftRight_add, Nat.add_comm,
    Nat.shiftRight_add, Nat.shiftLeft_shiftRight, shrRes]

theorem shrEx_eq : shrEx b a = ((b ++ 0#16 : BitVec 32) >>> a.toNat).extractLsb' 0 16 := by
  rw [lowWord_eq_narrow, BitVec.toNat_ushiftRight, toNat_append_zeros, shrEx]

theorem sshiftRight_append_zeros (n : Nat) :
    (b ++ 0#16 : BitVec 32).sshiftRight n = BitVec.ofInt 32 ((b.toInt * 65536) >>> n) := by
  rw [← toInt_append_zeros, BitVec.sshiftRight]

theorem asrRes_eq : asrRes b a = ((b ++ 0#16 : BitVec 32).sshiftRight a.toNat).extractLsb' 16 16 := by
  have hwhole : (b.toInt * 65536) >>> (16 : Nat) = b.toInt := by
    rw [Int.shiftRight_eq_div_pow]
    exact Int.mul_ediv_cancel _ (by decide)
  rw [sshiftRight_append_zeros, highWord_ofInt, ← Int.shiftRight_add, Nat.add_comm, Int.shiftRight_add, hwhole, asrRes]

theorem asrEx_eq : asrEx b a = ((b ++ 0#16 : BitVec 32).sshiftRight a.toNat).extractLsb' 0 16 := by
  rw [sshiftRight_append_zeros, lowWord_ofInt, asrEx]

/-- A count of 32 and more leaves nothing of the word, as R154 has it (D8). -/
theorem setWidth_shiftLeft_32 : b.setWidth 32 <<< a.toNat = BitVec.ofNat 32 (shlWide b a) := by
  unfold shlWide
  split
  · apply BitVec.eq_of_toNat_eq
    rw [BitVec.toNat_shiftLeft, toNat_setWidth_32, BitVec.toNat_ofNat]
  · exact BitVec.shiftLeft_eq_zero (by omega)

theorem shlRes_eq : shlRes b a = (b.setWidth 32 <<< a.toNat).extractLsb' 0 16 := by
  rw [setWidth_shiftLeft_32, lowWord_ofNat, shlRes]

theorem shlEx_eq : shlEx b a = (b.setWidth 32 <<< a.toNat).extractLsb' 16 16 := by
  rw [setWidth_shiftLeft_32, highWord_ofNat, shlEx]

end

/-! ## Next states (R101) -/

section
variable (s : State) (b a : Operand)

theorem State.moveOp_eq : s.moveOp b a = afterMoveB s b a (s.valueA a) := by
  rw [State.moveOp, State.afterB_eq]
  rfl

theorem State.basicOp_eq (res : Word → Word → Word) :
    s.basicOp res b a = afterOutputB s b a (res (s.valueB b a) (s.valueA a)) := by
  rw [State.basicOp, State.readB_eq]
  rfl

theorem State.basicOpEx_eq (res ex : Word → Word → Word) :
    s.basicOpEx res ex b a =
      afterOutputBEx s b a (res (s.valueB b a) (s.valueA a)) (ex (s.valueB b a) (s.valueA a)) := by
  rw [State.basicOpEx, State.readB_eq]
  rfl

/-- J is read after I has moved, which leaves it as it was (R157, R158). -/
theorem State.stepIJ_eq (d : Word) : s.stepIJ d = (s.setReg .i (s.reg .i + d)).setReg .j (s.reg .j + d) := by
  rw [State.stepIJ, State.reg_setReg_ne s (by decide)]

/-! What an instruction answers whose new b, and new EX, are the words `v` and `e` of the operands' values. -/

variable {s b a}

theorem next_basicOp {res : Word → Word → Word} {v : Word} (hv : res (s.valueB b a) (s.valueA a) = v) :
    (.next (s.basicOp res b a) : Host.Outcome State Fault Refusal) = .next (afterOutputB s b a v) := by
  rw [State.basicOp_eq, hv]

theorem next_basicOpEx {res ex : Word → Word → Word} {v e : Word} (hv : res (s.valueB b a) (s.valueA a) = v)
    (he : ex (s.valueB b a) (s.valueA a) = e) :
    (.next (s.basicOpEx res ex b a) : Host.Outcome State Fault Refusal) = .next (afterOutputBEx s b a v e) := by
  rw [State.basicOpEx_eq, hv, he]

end

/-- Settles O13: SET is a move, and each of the others writes the word of its definition. -/
theorem moveAndLogicResults : Obligations.MoveAndLogicResults := fun s b a =>
  ⟨congrArg _ (s.moveOp_eq b a), next_basicOp rfl, next_basicOp rfl, next_basicOp rfl⟩

/-- Settles O14: how the old EX is read drops out of the result words (`narrowInt_exInput`), not of the new EX. -/
theorem additionResults : Obligations.AdditionResults := fun _ _ _ =>
  ⟨next_basicOpEx (addRes_eq _ _) (addEx_eq _ _),
    next_basicOpEx (adxRes_eq _ _ _ _) (adxEx_eq _ _ _ _),
    next_basicOpEx (sbxRes_eq _ _ _ _) (sbxEx_eq _ _ _ _)⟩

/-- Settles O15. -/
theorem subResult : Obligations.SubResult := fun _ _ _ => next_basicOpEx (subRes_eq _ _) (subEx_eq _ _)

/-- Settles O16: 32 bits hold the unbounded product narrowed, and its two words are b and EX. -/
theorem multiplicationResults : Obligations.MultiplicationResults := fun _ _ _ =>
  ⟨next_basicOpEx (mulRes_eq _ _) (mulEx_eq _ _), next_basicOpEx (mliRes_eq _ _) (mliEx_eq _ _)⟩

/-- Settles O17. -/
theorem divResult : Obligations.DivResult := fun _ _ _ => next_basicOpEx (divRes_eq _ _) (divEx_eq _ _)

/-- Settles O18. -/
theorem dviResult : Obligations.DviResult := fun _ _ _ => next_basicOpEx (dviRes_eq _ _) (dviEx_eq _ _)

/-- Settles O19. -/
theorem remainderResults : Obligations.RemainderResults := fun _ _ _ =>
  ⟨next_basicOp (modRes_eq _ _), next_basicOp (mdiRes_eq _ _)⟩

/-- Settles O20: b, widened by 16 zeros, is shifted by the whole of a, and the two words of that are b and EX. -/
theorem shiftResults : Obligations.ShiftResults := fun _ _ _ =>
  ⟨next_basicOpEx (shrRes_eq _ _) (shrEx_eq _ _), next_basicOpEx (asrRes_eq _ _) (asrEx_eq _ _),
    next_basicOpEx (shlRes_eq _ _) (shlEx_eq _ _)⟩

/-- Settles O21: STD adds the negated step. -/
theorem setAndStepResults : Obligations.SetAndStepResults := by
  intro s b a
  have hsti : exec (.sti b a) s = .next ((s.moveOp b a).stepIJ s.wordStep) := rfl
  have hstd : exec (.std b a) s = .next ((s.moveOp b a).stepIJ (-s.wordStep)) := rfl
  rw [hsti, hstd, State.stepIJ_eq, State.stepIJ_eq, State.moveOp_eq, ← sub_eq_add_neg, ← sub_eq_add_neg]
  exact ⟨rfl, rfl⟩

end Sys2Proof.Machine
end

section
/-! What STI, STD and HWR keep: as the other instructions that write b, but for I and J and for the transfer that HWR
records (R157, R158, R192; O48). -/

namespace Sys2Proof.Machine

open Sys2Proof.Safety

/-! ## STI and STD -/

theorem State.stepIJ_reg {r : Reg} (hi : r ≠ .i) (hj : r ≠ .j) (s : State) (d : Word) :
    (s.stepIJ d).reg r = s.reg r := by
  rw [State.stepIJ_eq, State.reg_setReg_ne _ hj, State.reg_setReg_ne _ hi]

theorem exec_eq_stepIJ {s t : State} {b a : Operand} {i : Instr} (hi : i ∈ [.sti b a, .std b a])
    (h : exec i s = .next t) : ∃ d, t = (s.moveOp b a).stepIJ d := by
  obtain rfl | rfl : i = .sti b a ∨ i = .std b a := by simpa using hi
  · cases h
    exact ⟨s.wordStep, rfl⟩
  · cases h
    exact ⟨-s.wordStep, rfl⟩

/-! ## HWR -/

/-- A state that differs by its record of transactions alone, so that a transfer counts as made before the operands. -/
def State.withLog (s : State) (log : List BusEvent) : State := { s with busLog := log }

/-- Operands handled and a transaction recorded, as seen from the state that already holds the whole record. -/
theorem Handled.logBus {s u : State} {pc sp : Word} (h : Handled s u pc sp) (e : BusEvent) :
    Handled (s.withLog (u.busLog ++ [e])) (u.logBus e) pc sp := by
  obtain ⟨log, rfl, -⟩ := h
  exact ⟨[], by simp [State.withLog, State.logBus], fun _ => rfl⟩

theorem exec_hwr_outputFrame {s t : State} {b a : Operand} (h : exec (.hwr b a) s = .next t) :
    OutputFrame (s.withLog ((s.afterB b a).busLog ++ [.ioRead (s.valueA a)])) t (s.placeB b a)
      (pcAfter s (basicLength b a)) (spAfterB s b a) false := by
  cases h
  exact ((s.afterB_handled b a).logBus _).outputFrame _ _ false

theorem State.afterB_busLog_of_noDeviceMapped {s : State} (h : noDeviceMapped s) (b a : Operand) :
    (s.afterB b a).busLog = s.busLog := by
  obtain ⟨log, hu, hlog⟩ := s.afterB_handled b a
  rw [hu, hlog h, List.append_nil]

/-- Settles O48: STI and STD keep what SET keeps but for I and J, and HWR keeps it once its transfer stands in the
record. -/
theorem stepAndReadFrame : Obligations.StepAndReadFrame := by
  intro s t b a i hi h
  by_cases hhwr : i = .hwr b a
  · subst hhwr
    have f := exec_hwr_outputFrame h
    refine ⟨fun r hr _ => f.reg r hr, f.sp, f.pc, fun hp => f.ex hp rfl, f.byt, f.system, fun hram => ?_⟩
    obtain ⟨hoctets, hlog⟩ := f.ram hram
    refine ⟨fun q hq hdev => (hoctets q hq hdev).trans (State.octet_congr hdev rfl rfl), fun hnone => ?_⟩
    rw [hlog hnone, if_pos rfl, State.withLog, State.afterB_busLog_of_noDeviceMapped hnone]
  · have hmove : i ∈ [.sti b a, .std b a] := by simpa [hhwr] using hi
    obtain ⟨d, rfl⟩ := exec_eq_stepIJ hmove h
    have f := s.moveOp_outputFrame b a false
    refine ⟨fun r hr hne => ?_, f.sp, f.pc, fun hp => f.ex hp rfl, f.byt, f.system, fun hram => ?_⟩
    · obtain ⟨hri, hrj⟩ := hne.resolve_left hhwr
      rw [State.stepIJ_reg hri hrj, f.reg r hr]
    · rw [if_neg hhwr]
      exact f.ram hram

end Sys2Proof.Machine
end

section
/-! The conditionals of 42_basic_conditional.md: what each answers (O22), how far a skip goes (O23), and that the model's
own bound on a skip cuts off no chain that ends (O24). -/

namespace Sys2Proof.Machine

open Sys2Proof.Safety

/-! ## The tests (R170 to R177) -/

section
variable {b a : Word}

theorem testIfb_iff : testIfb b a = true ↔ b &&& a ≠ 0 := bne_iff_ne
theorem testIfc_iff : testIfc b a = true ↔ b &&& a = 0 := beq_iff_eq
theorem testIfe_iff : testIfe b a = true ↔ b = a := beq_iff_eq
theorem testIfn_iff : testIfn b a = true ↔ b ≠ a := bne_iff_ne
theorem testIfg_iff : testIfg b a = true ↔ a.toNat < b.toNat := decide_eq_true_iff
theorem testIfa_iff : testIfa b a = true ↔ a.toInt < b.toInt := decide_eq_true_iff
theorem testIfl_iff : testIfl b a = true ↔ b.toNat < a.toNat := decide_eq_true_iff
theorem testIfu_iff : testIfu b a = true ↔ b.toInt < a.toInt := decide_eq_true_iff

end

/-- What a conditional answers whose test says `P` of the operands' values. -/
theorem next_conditionalOp {s : State} {b a : Operand} {test : Word → Word → Bool} {P : Prop} [Decidable P]
    (h : test (s.valueB b a) (s.valueA a) = true ↔ P) :
    (.next (s.conditionalOp test b a) : Host.Outcome State Fault Refusal) =
      .next (if P then readHandledB s b a else (readHandledB s b a).skipChain) := by
  rw [State.conditionalOp, State.readB_eq, if_congr h rfl rfl]

/-- Settles O22: each of the eight is a conditional with its own test. -/
theorem conditionalResults : Obligations.ConditionalResults := fun _ _ _ =>
  ⟨next_conditionalOp testIfb_iff, next_conditionalOp testIfc_iff, next_conditionalOp testIfe_iff,
    next_conditionalOp testIfn_iff, next_conditionalOp testIfg_iff, next_conditionalOp testIfa_iff,
    next_conditionalOp testIfl_iff, next_conditionalOp testIfu_iff⟩

/-! ## How far a skip goes (R178) -/

/-- Is the instruction conditional that a skip from `s` reaches once it passed over `k`. -/
def State.chainsAt (s : State) (k : Nat) : Bool :=
  isConditionalWord ((State.pastInstr^[k] s).readWord (State.pastInstr^[k] s).pc)

theorem State.chainsAt_succ (s : State) (k : Nat) : s.chainsAt (k + 1) = s.pastInstr.chainsAt k := rfl

theorem skipLoop_of_chains {s : State} (h : s.chainsAt 0 = true) (fuel : Nat) :
    skipLoop (fuel + 1) s = skipLoop fuel s.pastInstr :=
  if_pos h

theorem skipLoop_of_not_chains {s : State} (h : s.chainsAt 0 = false) (fuel : Nat) :
    skipLoop (fuel + 1) s = { s.pastInstr with skip := false, byt := .off } :=
  if_neg (Bool.eq_false_iff.1 h)

/-- A skip with fuel enough ends past the first instruction that is not conditional. -/
theorem skipLoop_of_chain {n fuel : Nat} (hn : n < fuel) (s : State) (hchain : ∀ k < n, s.chainsAt k = true)
    (hend : s.chainsAt n = false) :
    skipLoop fuel s = { State.pastInstr^[n + 1] s with skip := false, byt := .off } := by
  induction fuel generalizing n s with
  | zero => exact absurd hn n.not_lt_zero
  | succ fuel ih =>
    cases n with
    | zero => exact skipLoop_of_not_chains hend fuel
    | succ n =>
      obtain ⟨hfirst, hrest⟩ := Nat.forall_lt_succ_left.1 hchain
      rw [skipLoop_of_chains hfirst]
      exact ih (Nat.lt_of_succ_lt_succ hn) s.pastInstr hrest hend

/-- The fuel runs out exactly inside a chain. -/
theorem skipLoop_skip_iff (fuel : Nat) (s : State) :
    (skipLoop fuel s).skip = true ↔ ∀ k < fuel, s.chainsAt k = true := by
  induction fuel generalizing s with
  | zero => exact ⟨fun _ k hk => absurd hk k.not_lt_zero, fun _ => rfl⟩
  | succ fuel ih =>
    rw [Nat.forall_lt_succ_left]
    cases h : s.chainsAt 0 with
    | true => simpa [skipLoop_of_chains h, State.chainsAt_succ] using ih s.pastInstr
    | false => simp [skipLoop_of_not_chains h]

/-- Settles O23. -/
theorem skipPassesOverAChain : Obligations.SkipPassesOverAChain := fun s _ hn hchain hend =>
  ⟨skipLoop_of_chain hn s hchain hend, fun _ => rfl⟩

/-! ## A skip where no device is mapped (log 24) -/

/-- A function on a finite type repeats itself: whatever it reaches, it reaches in fewer steps than the type has
values. -/
theorem exists_lt_card_iterate_eq {α : Type*} [Fintype α] (f : α → α) (x : α) (k : Nat) :
    ∃ j < Fintype.card α, f^[j] x = f^[k] x := by
  induction k using Nat.strong_induction_on with
  | _ k ih =>
    by_cases hk : k < Fintype.card α
    · exact ⟨k, hk, rfl⟩
    · obtain ⟨i, j, hlt, heq⟩ : ∃ i j : Fin (Fintype.card α + 1), i < j ∧ f^[i] x = f^[j] x := by
        obtain ⟨i, j, hne, heq⟩ := Fintype.exists_ne_map_eq_of_card_lt
          (fun i : Fin (Fintype.card α + 1) => f^[i] x) (by simp)
        exact hne.lt_or_gt.elim (fun h => ⟨i, j, h, heq⟩) fun h => ⟨j, i, h, heq.symm⟩
      have hshort : f^[k - j + i] x = f^[k] x := by
        rw [Function.iterate_add_apply, heq, ← Function.iterate_add_apply, Nat.sub_add_cancel (by omega)]
      rw [← hshort]
      exact ih _ (by omega)

theorem card_word_eq_skipFuel : Fintype.card Word = skipFuel :=
  FinEnum.card_eq_fintypeCard.symm.trans (FinEnum.card_bitVec 16)

/-- The address past the instruction at an address, by the length its first word gives (R75, R178). -/
def State.addrPastInstr (s : State) (va : Word) : Word := va + s.wordsStep (instrLength (s.readWord va))

section
variable {s : State}

/-- Where no device is mapped, passing over an instruction moves PC and does nothing else. -/
theorem State.pastInstr_setPc (hs : noDeviceMapped s) (va : Word) :
    (s.setPc va).pastInstr = s.setPc (s.addrPastInstr va) := by
  have hread : (s.setPc va).afterRead va = s.setPc va := State.noteRead_of_not_device fun q _ => hs q
  exact congrArg (·.setPc (s.addrPastInstr va)) hread

theorem State.pastInstr_iterate (hs : noDeviceMapped s) (k : Nat) :
    State.pastInstr^[k] s = s.setPc (s.addrPastInstr^[k] s.pc) :=
  have hstep : Function.Semiconj s.setPc s.addrPastInstr State.pastInstr := fun va => (State.pastInstr_setPc hs va).symm
  ((hstep.iterate_right k).eq s.pc).symm

theorem State.chainsAt_of_noDeviceMapped (hs : noDeviceMapped s) (k : Nat) :
    s.chainsAt k = isConditionalWord (s.readWord (s.addrPastInstr^[k] s.pc)) := by
  rw [State.chainsAt, State.pastInstr_iterate hs]
  rfl

/-- A chain as long as there are values of PC has come back to where it was, and never ends. -/
theorem State.chainsAt_of_skipFuel (hs : noDeviceMapped s) (h : ∀ k < skipFuel, s.chainsAt k = true) (k : Nat) :
    s.chainsAt k = true := by
  obtain ⟨j, hj, heq⟩ := exists_lt_card_iterate_eq s.addrPastInstr s.pc k
  rw [State.chainsAt_of_noDeviceMapped hs, ← heq, ← State.chainsAt_of_noDeviceMapped hs]
  exact h j (card_word_eq_skipFuel ▸ hj)

/-- While a skip is unfinished, a step goes on with it. -/
theorem step_of_skip {t : State} (ha : s.arrivals = some t) (ht : t.skip = true) : step s = .next t.skipChain := by
  have hboundary : s.boundary = .idle t.skipChain := by simp only [State.boundary, ha, ht, if_true]
  rw [step, hboundary]

end

/-- Settles O24: that no chain is cut off is `chainsAt_of_skipFuel`. -/
theorem skipEndsUnlessEndless : Obligations.SkipEndsUnlessEndless := by
  have hbound : ∀ s : State, s.skipChain.skip = true ↔ ∀ k < skipFuel, s.chainsAt k = true :=
    skipLoop_skip_iff skipFuel
  refine ⟨hbound, fun s hs => ?_, fun _ _ => step_of_skip, fun _ => State.arrivals_of_nothingArrives⟩
  exact (hbound s).trans ⟨State.chainsAt_of_skipFuel hs, fun h k _ => h k⟩

end Sys2Proof.Machine
end

section
/-! The transfers of 43_basic_io.md and HCF: what HWW, HWR and HCF answer (R191, R192, R206; O25). -/

namespace Sys2Proof.Machine

open Sys2Proof.Safety

/-! ## The I/O bus (R191, R192) -/

section
variable (s : State) (b a : Operand)

theorem exec_hww_eq :
    exec (.hww b a) s = .next ((readHandledB s b a).ioWrite (s.valueB b a) (s.valueA a)).endInstr := by
  rw [← s.readB_eq b a]
  rfl

/-- Handling the operands leaves the count of turns alone, so the port answers as of the turn the instruction is in. -/
theorem exec_hwr_eq :
    exec (.hwr b a) s =
      .next (((handledB s b a).logBus (.ioRead (s.valueA a))).writeOp s.byt (s.placeB b a)
        (Config.ioRead s.turns (handledB s b a).busLog (s.valueA a))).endInstr := by
  have hturns : (handledB s b a).turns = s.turns := rfl
  rw [← hturns, ← s.afterB_eq b a]
  rfl

/-! ## What HCF answers (R206) -/

theorem exec_hcf_eq :
    exec (.hcf a) s =
      .next ((heaterSet s a).changeAll ((heaterSet s a).heaterEffect (s.valueA a))).endInstr := by
  have hheats : (readHandledA s a).setHeater (s.valueA a) =
      (heaterSet s a).changeAll ((heaterSet s a).heaterEffect (s.valueA a)) := rfl
  rw [← hheats, ← s.readA_eq a]
  rfl

end

section
variable {s : State}

/-- HCR holds the value written and the mask is used up, whatever the heater does. -/
theorem exec_hcf_keeps {t : State} {a : Operand} (h : exec (.hcf a) s = .next t) :
    t.hcr = s.valueA a ∧ t.byt = .off := by
  cases h
  obtain ⟨hhcr, -⟩ := (s.readA a).setHeater_keeps (s.valueA a)
  exact ⟨hhcr, rfl⟩

/-! ## What the heater does (D21) -/

theorem State.heaterEffect_of_hook {v : Word} {cs : List StateChange} {rest : List (Word × List StateChange)}
    (h : s.cfg.heaterHook = (v, cs) :: rest) : s.heaterEffect v = cs := by
  have hfind : (s.cfg.heaterHook.find? fun e => e.1 == v) = some (v, cs) := by
    rw [h]
    exact List.find?_cons_of_pos (beq_self_eq_true v)
  rw [State.heaterEffect, hfind]

theorem State.heaterEffect_of_no_hook (h : s.cfg.heaterHook = []) (v : Word) :
    s.heaterEffect v = Config.heaterEffect s v := by
  rw [State.heaterEffect, h]
  rfl

end

/-- Settles O25: the next states are the three `exec` equations, and the heater acts under the parameters that the
instruction found. -/
theorem deviceTransferResults : Obligations.DeviceTransferResults := by
  intro s b a
  have hcfg : (heaterSet s a).cfg = s.cfg := rfl
  refine ⟨exec_hww_eq s b a, exec_hwr_eq s b a, exec_hcf_eq s a, fun _ => exec_hcf_keeps, fun _ _ hhook => ?_,
    fun hnone => ?_⟩
  · exact State.heaterEffect_of_hook (hcfg ▸ hhook)
  · exact State.heaterEffect_of_no_hook (hcfg ▸ hnone) _

end Sys2Proof.Machine
end

section
/-! The calls and the one-operand data operations of 44_special_flow_data.md, and the reads of IA, OVM and OVA of
45_special_system.md: what each answers (R200, R201, R205, R207, R208, R221, R241, R243; O26, O27, O29). -/

namespace Sys2Proof.Machine

open Sys2Proof.Safety

/-! ## The computed words (R205, R207, R208) -/

section
variable (a : Word)

theorem negRes_eq : negRes a = -a := by
  rw [negRes, narrowInt_sub, narrowInt_toNat]
  exact BitVec.zero_sub a

/-- Sign extension fills the high octet with bit 7. -/
theorem sxbRes_eq_joinOctets :
    sxbRes a = joinOctets (lowOctet a) (if a.getLsbD 7 then BitVec.allOnes 8 else 0) := by
  have hsign : (lowOctet a).msb = a.getLsbD 7 := by simp [lowOctet, BitVec.msb_eq_getLsbD_last]
  rw [← hsign]
  exact BitVec.signExtend_eq_append_of_le (by decide)

/-- The high octet is that of 0xff00 or of 0, taken from there by the masks of `joinOctets_low_highOctet`. -/
theorem sxbRes_eq : sxbRes a = if a.getLsbD 7 then 0xff00 ||| (a &&& 0x00ff) else a &&& 0x00ff := by
  rw [sxbRes_eq_joinOctets]
  split
  · exact joinOctets_low_highOctet a 0xff00
  · exact (joinOctets_low_highOctet a 0).trans BitVec.zero_or

theorem shiftLeft_8_eq_joinOctets : a <<< 8 = joinOctets 0#8 (lowOctet a) :=
  BitVec.shiftLeft_eq_concat_of_lt (by decide)

theorem ushiftRight_8_eq_joinOctets : a >>> 8 = joinOctets (highOctet a) 0#8 :=
  BitVec.ushiftRight_eq_extractLsb'_of_lt (by decide)

theorem swpRes_eq : swpRes a = (a <<< 8) ||| (a >>> 8) := by
  rw [shiftLeft_8_eq_joinOctets, ushiftRight_8_eq_joinOctets, joinOctets_or, BitVec.zero_or, BitVec.or_zero]
  rfl

end

/-! ## Next states -/

section
variable (s : State) (a : Operand)

/-! A direct output to a (R101, R107), after a was read or with a resolved only (D5). -/

theorem State.specialReadWrite_eq (v : Word) : s.specialReadWrite v a = afterOutputA s a v := by
  rw [State.specialReadWrite, State.readA_eq]
  rfl

theorem State.specialWrite_eq (v : Word) : s.specialWrite v a = afterMoveA s a v := by
  rw [State.specialWrite, State.afterA_eq]
  rfl

/-! A call (R114, R200, R201). -/

theorem exec_jsr_eq :
    exec (.jsr a) s = .next (((readHandledA s a).push (readHandledA s a).pc).setPc (s.valueA a)).endInstr := by
  rw [← s.readA_eq a]
  rfl

theorem exec_bsr_eq :
    exec (.bsr a) s =
      .next (((readHandledA s a).push (readHandledA s a).pc).setPc ((readHandledA s a).pc + s.valueA a)).endInstr := by
  rw [← s.readA_eq a]
  rfl

/-- A push and a jump leave the pushed word one word below SP, by the word step of the mode that `s` is in: handling the
operand keeps the mode. -/
theorem State.push_setPc_endInstr_eq (v target : Word) :
    (((readHandledA s a).push v).setPc target).endInstr =
      { (readHandledA s a).writeWord (below s (readHandledA s a).sp 1) v with
        sp := below s (readHandledA s a).sp 1, pc := target, byt := .off } := by
  rw [below_one]
  rfl

end

/-- What an instruction answers that reads a and whose new a is the word `v`. -/
theorem next_specialReadWrite {s : State} {a : Operand} {w v : Word} (hv : w = v) :
    (.next (s.specialReadWrite w a) : Host.Outcome State Fault Refusal) = .next (afterOutputA s a v) := by
  rw [State.specialReadWrite_eq, hv]

/-- Settles O27. -/
theorem octetResults : Obligations.OctetResults := fun _ _ =>
  ⟨next_specialReadWrite (sxbRes_eq _), next_specialReadWrite (swpRes_eq _)⟩

/-- Settles O29: the three reads write what `s` itself holds in IA, OVM and OVA. -/
theorem negateAndReadResults : Obligations.NegateAndReadResults := fun s a =>
  ⟨next_specialReadWrite (negRes_eq _), congrArg _ (s.specialWrite_eq a s.ia), congrArg _ (s.specialWrite_eq a s.ovm),
    congrArg _ (s.specialWrite_eq a s.ova)⟩

/-- Settles O26: JSR and BSR push alike and differ in where they go. -/
theorem callResults : Obligations.CallResults := by
  intro s a p
  rw [exec_jsr_eq, exec_bsr_eq, State.push_setPc_endInstr_eq, State.push_setPc_endInstr_eq]
  exact ⟨rfl, rfl⟩

end Sys2Proof.Machine
end

section
/-! The system instructions of 45_special_system.md: software interrupts and the return from one (O28, O32), the
special registers (O30), the EMU (O31), OS vector calls and their return (O33, O34), and the mode switch (O35). -/

namespace Sys2Proof.Machine

open Sys2Proof.Safety

/-! ## Stack addresses above SP -/

section
variable (s : State) (sp : Word)

theorem above_succ (k : Nat) : above s sp (k + 1) = above s sp k + s.wordStep := by
  rw [above, above, BitVec.ofNat_add, BitVec.add_mul, BitVec.one_mul, BitVec.add_assoc]

theorem above_one : above s sp 1 = sp + s.wordStep := by
  rw [above_succ]
  simp [above]

theorem above_two : above s sp 2 = sp + s.wordStep + s.wordStep := by
  rw [above_succ, above_one]

theorem above_three : above s sp 3 = sp + s.wordStep + s.wordStep + s.wordStep := by
  rw [above_succ, above_two]

end

/-! ## Software interrupts (R220, R306) -/

theorem exec_int_eq (s : State) (a : Operand) :
    exec (.int a) s = finishEnqueue ((readHandledA s a).enqueue (s.valueA a)) := by
  rw [← s.readA_eq a]
  rfl

theorem State.enqueue_eq_none {s : State} (h : Config.queueCapacity ≤ s.iq.length) (m : Word) : s.enqueue m = none :=
  if_neg (Nat.not_lt.mpr h)

/-- Settles O28: handling the operand leaves the queue as it is. -/
theorem softwareInterrupt : Obligations.SoftwareInterrupt := by
  intro s a
  have hiq : (readHandledA s a).iq = s.iq := rfl
  rw [exec_int_eq]
  constructor
  · intro hroom
    rw [State.enqueue_eq_some.mpr ⟨hiq ▸ hroom, rfl⟩]
    rfl
  · intro hfull
    rw [State.enqueue_eq_none (hiq ▸ hfull)]
    rfl

/-! ## Special registers (R222, R224, R242, R244) -/

/-- Settles O30: IAQ's test is the model's `!=` on words. -/
theorem specialRegisterWrites : Obligations.SpecialRegisterWrites := by
  intro s a
  have hflag : (s.valueA a != 0) = decide (s.valueA a ≠ 0) := by rw [bne, beq_eq_decide, decide_not]
  rw [← s.readA_eq a, ← hflag]
  exact ⟨rfl, rfl, rfl, rfl⟩

/-! ## The EMU (R230, R231) -/

theorem blockField_toNat (v : Word) : (blockField v).toNat = v.toNat % 16 := by
  rw [blockField, BitVec.extractLsb'_toNat, Nat.shiftRight_zero]

theorem pageField_toNat (v : Word) : (pageField v).toNat = v.toNat / 16 := by
  rw [pageField, BitVec.extractLsb'_toNat, Nat.shiftRight_eq_div_pow]
  exact Nat.mod_eq_of_lt (by omega)

theorem packPage_zero (p : Page) : packPage p 0 = BitVec.ofNat 16 (p.toNat * 16) := by
  refine BitVec.eq_of_toNat_eq ?_
  rw [packPage, BitVec.toNat_append, Nat.shiftLeft_eq, BitVec.toNat_ofNat]
  have hfits : p.toNat * 16 < 2 ^ 16 := by omega
  exact (Nat.or_zero _).trans (Nat.mod_eq_of_lt hfits).symm

theorem exec_mmw_eq (s : State) (a : Operand) :
    exec (.mmw a) s =
      .next ((readHandledA s a).setPage (blockField (s.valueA a)) (pageField (s.valueA a))).endInstr := by
  rw [← s.readA_eq a]
  rfl

/-- Settles O31: the fields are those of the statement as numbers, and MMR's word is the page before four zeros. -/
theorem pageMapAccess : Obligations.PageMapAccess := fun s a =>
  ⟨blockField_toNat _, pageField_toNat _, exec_mmw_eq s a, next_specialReadWrite (packPage_zero _)⟩

/-! ## Returns (R223, R240, R313, R322) -/

theorem exec_rfi_eq (s : State) (a : Operand) :
    exec (.rfi a) s = .next (readHandledA s a).interruptReturn.endInstr := by
  rw [← s.readA_eq a]
  rfl

theorem exec_rfo_eq (s : State) (a : Operand) :
    exec (.rfo a) s = .next (readHandledA s a).osVectorReturn.endInstr := by
  rw [← s.readA_eq a]
  rfl

/-- Settles O32: the two pops read the words that stand 0 and 1 above SP. -/
theorem returnFromInterrupt : Obligations.ReturnFromInterrupt := by
  intro s a
  simp only [exec_rfi_eq, above_two, above_one]
  rfl

/-- Settles O34: the three pops read, through the mapping of `exchanged`, the words that stand 0, 1 and 2 above SP. -/
theorem returnFromOsCall : Obligations.ReturnFromOsCall := by
  intro s a
  simp only [exec_rfo_eq, above_three, above_two, above_one]
  rfl

/-! ## OS vector calls (R236 to R239, R320, R321) -/

theorem State.push_setSp (s : State) (p v : Word) :
    (s.setSp p).push v = (s.writeWord (p - s.wordStep) v).setSp (p - s.wordStep) := rfl

/-- Three pushes store below SP and leave it there: a stored word does not move SP. -/
theorem State.push_push_push (s : State) (x y z : Word) :
    ((s.push x).push y).push z =
      (((s.writeWord (below s s.sp 1) x).writeWord (below s s.sp 2) y).writeWord (below s s.sp 3) z).setSp
        (below s s.sp 3) := by
  have hself : s.push x = (s.setSp s.sp).push x := rfl
  rw [hself, below_three, below_two, below_one]
  simp only [State.push_setSp, State.wordStep_writeWord]

/-- A stored word changes memory and the record of transactions only (R46, R52). -/
theorem State.exists_writeWord (s : State) (x u : Word) :
    ∃ mem log, s.writeWord x u = { s with mem := mem, busLog := log } := ⟨_, _, rfl⟩

theorem State.exists_writeWord_three (s : State) (x y z u v w : Word) :
    ∃ mem log, ((s.writeWord x u).writeWord y v).writeWord z w = { s with mem := mem, busLog := log } := by
  obtain ⟨_, _, hfirst⟩ := s.exists_writeWord x u
  obtain ⟨_, _, hsecond⟩ := State.exists_writeWord { s with mem := _, busLog := _ } y v
  rw [hfirst, hsecond]
  exact State.exists_writeWord _ z w

/-- A call with OVA not 0 is the three pushes, the exchange and the three registers R320 names. -/
theorem State.osVectorCall_eq_enteredOsCall {s : State} (h : s.ova ≠ 0) (n m : Word) :
    s.osVectorCall n m = enteredOsCall s n m := by
  rw [State.osVectorCall_of_ne_zero h, enteredOsCall, State.push_push_push, ← below_three]
  obtain ⟨mem, log, hstored⟩ := s.exists_writeWord_three (below s s.sp 1) (below s s.sp 2) (below s s.sp 3) s.pc
    (s.reg .a) (s.reg .b)
  rw [hstored]
  rfl

/-- What a call answers once its operand is read: the handler is entered exactly where OVA is not 0. -/
theorem next_osVectorCall (s : State) (a : Operand) (n : Word) :
    (.next ((s.readA a).osVectorCall n (s.valueA a)).endInstr : Host.Outcome State Fault Refusal) =
      .next (if s.ova = 0 then { readHandledA s a with byt := .off }
        else { enteredOsCall (readHandledA s a) n (s.valueA a) with byt := .off }) := by
  have hova : (readHandledA s a).ova = s.ova := rfl
  rw [s.readA_eq a]
  split
  · next hzero =>
    rw [State.osVectorCall_of_eq_zero (hova.trans hzero)]
    rfl
  · next hset =>
    rw [State.osVectorCall_eq_enteredOsCall (hova ▸ hset)]
    rfl

/-- Settles O33: the four calls differ in their numbers only. -/
theorem osVectorCalls : Obligations.OsVectorCalls := fun s a =>
  ⟨next_osVectorCall s a _, next_osVectorCall s a _, next_osVectorCall s a _, next_osVectorCall s a _⟩

/-! ## The mode switch (R248) -/

theorem toNative_eq_shiftLeft (r : Word) : toNative r = r <<< 1 :=
  (BitVec.shiftLeft_eq_concat_of_lt (x := r) (n := 1) (by decide)).symm

theorem top_bit_eq_append (b : Bool) : (if b then 0x8000 else 0x0000 : Word) = BitVec.ofBool b ++ 0#15 := by
  cases b
  · rfl
  · rfl

/-- Bit 15 is clear after the shift, so the EMU's bit is put there. -/
theorem State.toCompatible_eq (s : State) (r : Word) :
    s.toCompatible r = r >>> 1 ||| (if (s.page (blockOf r)).getLsbD 0 then 0x8000 else 0x0000) := by
  have hbit : (s.page (blockOf r)).extractLsb' 0 1 = BitVec.ofBool ((s.page (blockOf r)).getLsbD 0) := by
    rw [← BitVec.setWidth_eq_extractLsb' (by decide), BitVec.setWidth_one]
  have hshift : r >>> 1 = 0#1 ++ r.extractLsb' 1 15 := BitVec.ushiftRight_eq_extractLsb'_of_lt (by decide)
  rw [State.toCompatible, hbit, hshift, top_bit_eq_append]
  exact (BitVec.or_append.trans (by rw [BitVec.zero_or, BitVec.or_zero])).symm

theorem exec_cme_eq (s : State) (a : Operand) :
    exec (.cme a) s = .next ((readHandledA s a).switchMode (s.valueA a)).endInstr := by
  rw [← s.readA_eq a]
  rfl

/-- Settles O35: handling the operand keeps the mode and the EMU, so the key and the mode of `s` choose the branch, and
the EMU of `s` gives the top bits. -/
theorem modeSwitch : Obligations.ModeSwitch := by
  intro s a p down
  have hmode : p.mode = s.mode := rfl
  have hdown : ∀ r, (readHandledA s a).toCompatible r = down r := p.toCompatible_eq
  rw [exec_cme_eq, State.switchMode, hmode]
  split
  · simp only [State.enterCompatible, hdown]
    rfl
  · split
    · simp only [State.enterNative, toNative_eq_shiftLeft]
      rfl
    · rfl

end Sys2Proof.Machine
end

section
/-! The implied instructions of 46_implied.md: what each answers (O36 to O39), the boundary of a halted and of a sleeping
CPU (O42, O43), and how long a byte mask lasts over all instructions (O53). -/

namespace Sys2Proof.Machine

open Sys2Proof.Safety

/-! ## Next states (R260 to R270) -/

section
variable (s : State) (v : Bool)

theorem exec_hlt_eq :
    exec (.hlt v) s =
      if s.ia = 0 then .next { handledNone s with run := .halted, byt := .off }
      else finishEnqueue ((handledNone s).enqueue 0) := by
  rw [← s.pastWord_eq, ← ite_not]
  rfl

theorem exec_slp_eq : exec (.slp v) s = .next { handledNone s with run := .sleeping, byt := .off } := by
  rw [← s.pastWord_eq]
  rfl

theorem exec_skp_eq : exec (.skp v) s = .next { (handledNone s).skipChain with byt := .off } := by
  rw [← s.pastWord_eq]
  rfl

theorem State.resetAll_eq_afterReset : s.resetAll = afterReset s := rfl

theorem exec_sfr_eq : exec (.sfr v) s = .next (handledNone s).resetAll := by
  rw [← s.pastWord_eq]
  rfl

theorem exec_byt_eq : exec (.byt v) s = .next { handledNone s with byt := bytAfter s.byt v } := by
  rw [← s.pastWord_eq]
  rfl

end

/-- A mask in effect, of either kind, ends; without one `v` selects the octet (R266). -/
theorem bytAfter_eq (m : ByteMask) (v : Bool) :
    bytAfter m v = if m ≠ .off then .off else if v then .protectHigh else .protectLow := by
  cases m with
  | off => rfl
  | protectLow | protectHigh => rfl

/-- Settles O36: IA decides between halting and queuing message 0, and queuing answers by the room in the queue, which
fetching the instruction leaves as it was. -/
theorem haltResult : Obligations.HaltResult := by
  intro s v
  have hiq : (handledNone s).iq = s.iq := rfl
  rw [exec_hlt_eq]
  refine ⟨fun hia => if_pos hia, fun hia hroom => ?_, fun hia hfull => ?_⟩
  · rw [if_neg hia, State.enqueue_eq_some.mpr ⟨hiq ▸ hroom, rfl⟩]
    rfl
  · rw [if_neg hia, State.enqueue_eq_none (hiq ▸ hfull)]
    rfl

/-- Settles O37. -/
theorem sleepAndSkipResults : Obligations.SleepAndSkipResults := fun s v => ⟨exec_slp_eq s v, exec_skp_eq s v⟩

/-- Settles O38: the model's reset is the state R350 lists field by field. -/
theorem selfReset : Obligations.SelfReset := by
  intro s v
  rw [exec_sfr_eq, State.resetAll_eq_afterReset]

/-- Settles O39. -/
theorem byteMaskResult : Obligations.ByteMaskResult := by
  intro s v
  rw [exec_byt_eq, bytAfter_eq]

/-! ## The boundary of a halted CPU (R261) -/

section
variable {s : State}

/-- A halted CPU ignores every interrupt, so a whole list of them changes nothing. -/
theorem State.acceptAll_interrupts_of_halted (h : s.run = .halted) (ms : List Word) :
    s.acceptAll (ms.map .interrupt) = some s := by
  induction ms with
  | nil => rfl
  | cons m ms ih =>
    have hignored : s.accept (.interrupt m) = some s := if_pos h
    rw [List.map_cons, State.acceptAll, hignored]
    exact ih

/-- A halted CPU that skips nothing is idle, whatever has arrived. -/
theorem step_of_halted {t : State} (ha : s.arrivals = some t) (hskip : t.skip = false) (hrun : t.run = .halted) :
    step s = .next t := by
  have hboundary : s.boundary = .idle t := by
    simp only [State.boundary, ha, hskip, hrun, Bool.false_eq_true, if_false]
  rw [step, hboundary]

end

/-- Settles O42. -/
theorem haltedStaysHalted : Obligations.HaltedStaysHalted := by
  intro s ms hrun hskip hin
  have harrivals : s.arrivals = some (turned s) := by
    rw [State.arrivals, hin]
    exact State.acceptAll_interrupts_of_halted (s := turned s) hrun ms
  exact step_of_halted harrivals hskip hrun

/-! ## The boundary of a sleeping CPU (R263) -/

section
variable {s : State}

theorem State.boundary_of_sleeping (ha : nothingArrives s) (hskip : s.skip = false) (hrun : s.run = .sleeping) :
    s.boundary = (turned s).sleepBoundary := by
  have hskip' : (turned s).skip = false := hskip
  have hrun' : (turned s).run = .sleeping := hrun
  simp only [State.boundary, State.arrivals_of_nothingArrives ha, hskip', hrun', Bool.false_eq_true, if_false]

/-- With no message, or with queuing on, nothing can be triggered. -/
theorem State.sleepBoundary_of_not_triggered (h : s.iq = [] ∨ s.qf = true) : s.sleepBoundary = .idle s := by
  cases hiq : s.iq with
  | nil => simp only [State.sleepBoundary, hiq]
  | cons m q =>
    have hqf : s.qf = true := h.resolve_left (by simp [hiq])
    simp only [State.sleepBoundary, hiq, hqf, if_true]

/-- With queuing off the oldest message wakes the CPU where IA is not 0, and is dropped where it is. -/
theorem State.sleepBoundary_of_triggered {m : Word} {q : List Word} (hiq : s.iq = m :: q) (hqf : s.qf = false) :
    s.sleepBoundary = if s.ia = 0 then .idle (s.setIq q) else .perform (s.setRun .running).deliver := by
  simp only [State.sleepBoundary, hiq, hqf, Bool.false_eq_true, if_false, ite_not]

end

/-- Settles O43: the boundary of the sleeping CPU, and for the message that wakes it `State.deliver_of_triggered`. -/
theorem sleepEndsByAnInterrupt : Obligations.SleepEndsByAnInterrupt := by
  intro s ha hskip hrun hbyt
  have hboundary := State.boundary_of_sleeping ha hskip hrun
  refine ⟨fun hidle => ?_, fun m q hiq hqf => ?_⟩
  · rw [step, hboundary, State.sleepBoundary_of_not_triggered (s := turned s) hidle]
  · rw [State.sleepBoundary_of_triggered (s := turned s) hiq hqf] at hboundary
    refine ⟨fun hia => ?_, fun hia => ?_⟩
    · have hdrop : s.boundary = .idle { turned s with iq := q } := hboundary.trans (if_pos hia)
      rw [step, hdrop]
    · intro u
      have hwake : s.boundary = .perform ((turned s).setRun .running).deliver := hboundary.trans (if_neg hia)
      have henter : ((turned s).setRun .running).deliver = u :=
        (State.deliver_of_triggered (s := (turned s).setRun .running) hiq hqf hbyt).trans (if_neg hia)
      rw [step, hwake, henter]

/-! ## How long a byte mask lasts (R268, R180) -/

/-- What a conditional answers, by its test: the state with both operands read, or that state once the skip is over. -/
theorem exec_of_isConditional {i : Instr} (hi : isConditional i = true) (s : State) :
    ∃ b a, exec i s = .next (if passes s i then readHandledB s b a else (readHandledB s b a).skipChain) := by
  cases i with
  | ifb b a | ifc b a | ife b a | ifn b a | ifg b a | ifa b a | ifl b a | ifu b a =>
    obtain ⟨hifb, hifc, hife, hifn, hifg, hifa, hifl, hifu⟩ := conditionalResults s b a
    refine ⟨b, a, ?_⟩
    simp only [passes, decide_eq_true_eq, hifb, hifc, hife, hifn, hifg, hifa, hifl, hifu]
  | _ => cases hi

/-- Every instruction but the conditionals and BYT uses the mask up, with a direct output or without one (R268, D15). -/
theorem exec_byt_off {i : Instr} {s t : State} (h : exec i s = .next t) (hi : isConditional i = false)
    (hbyt : ∀ v, i ≠ .byt v) : t.byt = .off := by
  cases i with
  | ifb b a | ifc b a | ife b a | ifn b a | ifg b a | ifa b a | ifl b a | ifu b a => cases hi
  | byt v => exact absurd rfl (hbyt v)
  | set b a | sti b a | std b a | mod b a | mdi b a | and b a | bor b a | xor b a | hww b a | hwr b a
  | add b a | sub b a | mul b a | mli b a | div b a | dvi b a | shr b a | asr b a | shl b a | adx b a | sbx b a =>
    cases h
    rfl
  | jsr a | bsr a | neg a | sxb a | swp a | mmr a | iag a | omg a | ovg a | ias a | iaq a | mmw a | oms a | ovs a
  | rfi a | rfo a | osn a | osq a | osi a | osr a | cme a | skp a =>
    cases h
    rfl
  | int a =>
    obtain ⟨-, rfl⟩ := finishEnqueue_eq_next h
    rfl
  | hlt v | slp v | sfr v | hcf a => exact exec_byt_of_mayChangeRun h rfl
  | _ => cases h

/-- Settles O53: handling the operands leaves BYT as it is, and a skip that ends turns it off (`skipLoop_byt`). -/
theorem maskLastsOneInstruction : Obligations.MaskLastsOneInstruction := by
  intro i s t h
  refine ⟨exec_byt_off h, fun hi hpass => ?_, fun hi hfail => ?_⟩
  · obtain ⟨b, a, hexec⟩ := exec_of_isConditional hi s
    rw [hexec, if_pos hpass] at h
    cases h
    rfl
  · obtain ⟨b, a, hexec⟩ := exec_of_isConditional hi s
    rw [hexec, if_neg (Bool.eq_false_iff.1 hfail)] at h
    cases h
    exact (skipLoop_byt skipFuel (readHandledB s b a)).symm

end Sys2Proof.Machine
end

section
/-! The rules of 60_exceptions.md over boundaries and instructions: what arrives at a boundary (O44), the two points at
which the machine stops (O54), and how the queue moves in a step (O55). -/

namespace Sys2Proof.Machine

open Sys2Proof.Safety

/-! ## Arrivals one by one (R303, R307) -/

/-- Only what has arrived by then decides what a step does. -/
theorem step_congr_arrivals {s t : State} (h : s.arrivals = t.arrivals) : step s = step t := by
  simp only [step, State.boundary, h]

section
variable {s : State} {e : PlatformEvent} {es : List PlatformEvent} {rest : List (List PlatformEvent)}

/-- The first event of a boundary leaves a state in which the others arrive. -/
theorem step_of_accept {t : State} (hin : s.inputs = (e :: es) :: rest) (ht : t.inputs = es :: rest)
    (h : s.beginTurn.accept e = some t.beginTurn) : step s = step t := by
  refine step_congr_arrivals ?_
  simp only [State.arrivals, hin, ht, List.headD_cons, State.acceptAll, h]

theorem step_of_accept_eq_none (hin : s.inputs = (e :: es) :: rest) (h : s.beginTurn.accept e = none) :
    step s = .fault .queueOverflow := by
  simp only [step, State.boundary, State.arrivals, hin, List.headD_cons, State.acceptAll, h]

/-- A turn begun takes off the boundary whatever is left of its events. -/
theorem State.beginTurn_with_inputs (hin : s.inputs = (e :: es) :: rest) :
    ({ s with inputs := es :: rest } : State).beginTurn = s.beginTurn := by
  simp only [State.beginTurn, hin, List.tail_cons]

theorem step_of_interrupt {m : Word} (hin : s.inputs = (.interrupt m :: es) :: rest) :
    step s =
      if s.run = .halted then step { s with inputs := es :: rest }
      else if s.iq.length < 256 then step { s with inputs := es :: rest, iq := s.iq ++ [m] }
      else .fault .queueOverflow := by
  have hbegin := State.beginTurn_with_inputs hin
  split
  · next hhalt =>
    have hignored : s.beginTurn.accept (.interrupt m) = some s.beginTurn := if_pos hhalt
    exact step_of_accept hin rfl (hignored.trans (congrArg some hbegin.symm))
  · next hrun =>
    have hqueued : s.beginTurn.accept (.interrupt m) = s.beginTurn.enqueue m := if_neg hrun
    split
    · next hroom =>
      refine step_of_accept hin rfl (hqueued.trans (State.enqueue_eq_some.2 ⟨hroom, ?_⟩))
      exact congrArg (State.setIq · (s.iq ++ [m])) hbegin
    · next hfull =>
      exact step_of_accept_eq_none hin (hqueued.trans (State.enqueue_eq_none (s := s.beginTurn) (Nat.not_lt.1 hfull) m))

end

/-- Messages that arrive at one boundary are queued in order, or one of them finds the queue full. -/
theorem step_of_interrupts {s : State} {ms : List Word} {rest : List (List PlatformEvent)}
    (hin : s.inputs = ms.map .interrupt :: rest) (hrun : s.run ≠ .halted) (hms : ms = [] → s.iq.length ≤ 256) :
    step s =
      if s.iq.length + ms.length ≤ 256 then step { s with inputs := [] :: rest, iq := s.iq ++ ms }
      else .fault .queueOverflow := by
  induction ms generalizing s with
  | nil =>
    have hnone : s.inputs = [] :: rest := hin
    have hfits : s.iq.length + ([] : List Word).length ≤ 256 := hms rfl
    rw [if_pos hfits, List.append_nil, ← hnone]
  | cons m ms ih =>
    rw [step_of_interrupt hin, if_neg hrun]
    split
    · next hroom =>
      have hlen : (s.iq ++ [m]).length = s.iq.length + 1 := List.length_append
      have hrest := ih (s := { s with inputs := ms.map .interrupt :: rest, iq := s.iq ++ [m] }) rfl hrun
        fun _ => hlen ▸ hroom
      rw [hrest, hlen, List.append_assoc, List.length_cons, Nat.add_assoc, Nat.add_comm 1]
      rfl
    · next hfull => rw [if_neg (by rw [List.length_cons]; omega)]

/-- Settles O44: a reset and a store never fail, a message is `step_of_interrupt`, and a list of them the induction
`step_of_interrupts`. -/
theorem arrivingInterruptsAreQueued : Obligations.ArrivingInterruptsAreQueued := by
  refine ⟨fun s e es rest hin => ?_, fun s ms rest hin hrun hms => step_of_interrupts hin hrun fun h => absurd h hms⟩
  have hbegin := State.beginTurn_with_inputs hin
  cases e with
  | reset | store p v => exact step_of_accept hin rfl (by rw [← hbegin]; rfl)
  | interrupt m => exact step_of_interrupt hin

/-! ## Where an instruction stops (R301) -/

theorem finishEnqueue_cases (s : State) (m : Word) :
    (∃ t, finishEnqueue (s.enqueue m) = .next t) ∨
      256 ≤ s.iq.length ∧ finishEnqueue (s.enqueue m) = .fault .queueOverflow := by
  by_cases hroom : s.iq.length < Config.queueCapacity
  · rw [State.enqueue_eq_some.2 ⟨hroom, rfl⟩]
    exact .inl ⟨_, rfl⟩
  · rw [State.enqueue_eq_none (Nat.not_lt.1 hroom)]
    exact .inr ⟨Nat.not_lt.1 hroom, rfl⟩

/-- The instructions that can find the queue full: INT, and HLT with interrupts enabled (R306, R260). -/
def QueuesMessage (s : State) (i : Instr) : Prop := (∃ a, i = .int a) ∨ (∃ v, i = .hlt v) ∧ s.ia ≠ 0

/-- What an instruction answers: a next state, or one of the two stops of R301. -/
theorem exec_cases (i : Instr) (s : State) :
    (∃ t, exec i s = .next t) ∨ isReserved i = true ∧ exec i s = .fault .reservedOpcode ∨
      QueuesMessage s i ∧ 256 ≤ s.iq.length ∧ exec i s = .fault .queueOverflow := by
  cases hi : isReserved i with
  | true => exact .inr (.inl ⟨rfl, reservedOpcodesFault i s hi⟩)
  | false =>
    cases i with
    | int a =>
      rw [exec_int_eq]
      exact (finishEnqueue_cases (readHandledA s a) _).imp_right fun h => .inr ⟨.inl ⟨a, rfl⟩, h⟩
    | hlt v =>
      rw [exec_hlt_eq]
      split
      · exact .inl ⟨_, rfl⟩
      · next hia => exact (finishEnqueue_cases (handledNone s) 0).imp_right fun h => .inr ⟨.inr ⟨⟨v, rfl⟩, hia⟩, h⟩
    | set b a | sti b a | std b a | mod b a | mdi b a | and b a | bor b a | xor b a | hww b a | hwr b a
    | add b a | sub b a | mul b a | mli b a | div b a | dvi b a | shr b a | asr b a | shl b a | adx b a | sbx b a
    | ifb b a | ifc b a | ife b a | ifn b a | ifg b a | ifa b a | ifl b a | ifu b a => exact .inl ⟨_, rfl⟩
    | jsr a | bsr a | neg a | sxb a | swp a | hcf a | iag a | ias a | rfi a | iaq a | mmw a | mmr a | osn a | osq a
    | osi a | osr a | rfo a | omg a | oms a | ovg a | ovs a | cme a => exact .inl ⟨_, rfl⟩
    | slp v | sfr v | byt v | skp v => exact .inl ⟨_, rfl⟩
    | _ => cases hi

/-- Settles O54. -/
theorem faultsOnlyWhereTheSpecStops : Obligations.FaultsOnlyWhereTheSpecStops := by
  intro i s
  rcases exec_cases i s with ⟨t, h⟩ | ⟨hi, h⟩ | ⟨hi, hfull, h⟩
  · rw [h]
    exact ⟨nofun, nofun⟩
  · rw [h]
    refine ⟨nofun, fun f hf => ?_⟩
    cases hf
    exact .inl ⟨rfl, hi⟩
  · rw [h]
    refine ⟨nofun, fun f hf => ?_⟩
    cases hf
    exact .inr ⟨rfl, hfull, hi⟩

/-! ## The queue in a step (R307, R308) -/

/-- An instruction leaves the queue as it is or appends to it, but for SFR, which empties it, and HCF. -/
theorem SystemChange.iq_cases {i : Instr} {σ τ : System} (h : SystemChange σ i τ) :
    σ.iq <+: τ.iq ∨ (∃ v, i = .sfr v) ∧ τ.iq = [] ∨ ∃ a, i = .hcf a := by
  cases h with
  | queues i hi m hroom => exact .inl (List.prefix_append _ _)
  | resets v => exact .inr (.inl ⟨⟨v, rfl⟩, rfl⟩)
  | heats a τ hskip hcfg hinputs hturns hiq => exact .inr (.inr ⟨a, rfl⟩)
  | _ => exact .inl (List.prefix_refl _)

/-- Delivery takes the oldest message or none (R308). -/
theorem State.deliver_iq (s : State) : s.deliver.iq = s.iq ∨ s.deliver.iq = s.iq.tail := by
  rcases s.deliver_cases with h | ⟨m, rest, hiq, -, -, ⟨-, h⟩ | ⟨-, h⟩⟩
  · exact .inl (congrArg State.iq h)
  · rw [h, hiq]
    exact .inr rfl
  · rw [h, hiq]
    exact .inr rfl

/-- At an idle boundary at most a sleeping CPU drops its oldest message (R263). -/
theorem idle_iq {s t : State} (ha : nothingArrives s) (h : s.boundary = .idle t) : t.iq = s.iq ∨ t.iq = s.iq.tail := by
  obtain ⟨u, hu, ht⟩ := boundary_eq_idle h
  cases (State.arrivals_of_nothingArrives ha).symm.trans hu
  rcases ht with ⟨-, rfl⟩ | rfl | ⟨-, m, rest, hiq, rfl⟩
  · obtain ⟨pc, skip, byt, log, hskip⟩ := (turned s).skipChain_frame
    rw [hskip]
    exact .inl rfl
  · exact .inl rfl
  · exact .inr (congrArg List.tail hiq).symm

theorem perform_iq {s u : State} (ha : nothingArrives s) (h : s.boundary = .perform u) :
    u.iq = s.iq ∨ u.iq = s.iq.tail := by
  obtain ⟨v, hv, -, rfl⟩ := boundary_eq_perform h
  cases (State.arrivals_of_nothingArrives ha).symm.trans hv
  exact ((turned s).setRun .running).deliver_iq

/-- Settles O55: the boundary takes at most the oldest message, and the instruction appends. -/
theorem atMostOneMessageLeaves : Obligations.AtMostOneMessageLeaves := by
  intro s t ha h
  have hprefix {u : State} (hu : u.iq = s.iq ∨ u.iq = s.iq.tail) (hut : u.iq <+: t.iq) :
      s.iq <+: t.iq ∨ s.iq.tail <+: t.iq :=
    Or.imp (fun h : u.iq = s.iq => h ▸ hut) (fun h : u.iq = s.iq.tail => h ▸ hut) hu
  rcases step_cases s with ⟨f, -, hstep⟩ | ⟨u, hu, hstep⟩ | ⟨u, hu, hstep⟩
  · cases hstep.symm.trans h
  · cases hstep.symm.trans h
    exact or_assoc.1 (.inl (hprefix (idle_iq ha hu) (List.prefix_refl _)))
  · rcases (exec_systemChange (hstep.symm.trans h)).iq_cases with hkeep | hsfr | hhcf
    · exact or_assoc.1 (.inl (hprefix (perform_iq ha hu) hkeep))
    · exact .inr (.inr ⟨u, hu, .inl hsfr⟩)
    · exact .inr (.inr ⟨u, hu, .inr hhcf⟩)

end Sys2Proof.Machine
end

section
/-! The handlers of 60_exceptions.md: RFI undoes an interrupt entry (O56), and RFO an OS vector call (O57), whatever the
handler did that keeps its frame. -/

namespace Sys2Proof.Machine

open Sys2Proof.Safety

/-! ## States under one mapping (R41, R42, R52) -/

/-- `t` translates addresses as `s` does, and has the same memory map. -/
structure SameMapping (s t : State) : Prop where
  cfg : t.cfg = s.cfg
  mode : t.mode = s.mode
  emu : t.emu = s.emu

theorem SameMapping.refl (s : State) : SameMapping s s := ⟨rfl, rfl, rfl⟩

theorem SameMapping.writeWord {s t : State} (h : SameMapping s t) (va v : Word) : SameMapping s (t.writeWord va v) :=
  ⟨h.cfg, h.mode, h.emu⟩

theorem State.wordStep_congr {s t : State} (h : t.mode = s.mode) : t.wordStep = s.wordStep := by
  simp only [State.wordStep, h]

section
variable {s t : State} (h : SameMapping s t)
include h

theorem SameMapping.page_eq (b : Block) : t.page b = s.page b := by
  simp only [State.page, h.emu]

theorem SameMapping.lowAddr_eq (va : Word) : t.lowAddr va = s.lowAddr va := by
  simp only [State.lowAddr, State.nativeAddr, State.compatAddr, h.mode, h.page_eq]

theorem SameMapping.highAddr_eq (va : Word) : t.highAddr va = s.highAddr va := by
  simp only [State.highAddr, State.nativeAddr, State.compatAddr, h.mode, h.page_eq]

theorem SameMapping.kindAt_eq (q : PAddr) : t.kindAt q = s.kindAt q := by
  simp only [State.kindAt, h.cfg]

theorem SameMapping.ramWord {va : Word} (hram : ramWord s va) : ramWord t va := by
  simpa only [Safety.ramWord, h.lowAddr_eq, h.highAddr_eq, h.kindAt_eq] using hram

end

/-! ## Words kept in memory -/

theorem mem_wordOctets {s : State} {va : Word} {q : PAddr} :
    q ∈ wordOctets s va ↔ q = s.lowAddr va ∨ q = s.highAddr va := by
  simp [wordOctets]

theorem noDevice_of_ramWord {s : State} {va : Word} (h : ramWord s va) : noDevice s (wordOctets s va) := by
  obtain ⟨hlow, hhigh⟩ := h
  intro q hq
  rcases mem_wordOctets.1 hq with rfl | rfl
  · simp [hlow]
  · simp [hhigh]

/-- The octets that make up the word at `va` in `s` hold the word `v` in `t`, under whatever mapping `t` has. -/
def HoldsWord (s t : State) (va v : Word) : Prop :=
  t.octet (s.lowAddr va) = lowOctet v ∧ t.octet (s.highAddr va) = highOctet v

section
variable {s t : State} {va v : Word}

theorem HoldsWord.of_octets {u : State} (h : HoldsWord s t va v)
    (hoctet : ∀ q ∈ wordOctets s va, u.octet q = t.octet q) : HoldsWord s u va v :=
  ⟨(hoctet _ (mem_wordOctets.2 (.inl rfl))).trans h.1, (hoctet _ (mem_wordOctets.2 (.inr rfl))).trans h.2⟩

/-- A word that lies in RAM is held as well by a state with the same memory and the same memory map. -/
theorem HoldsWord.congr {u : State} (h : HoldsWord s t va v) (hram : ramWord s va) (hm : u.mem = t.mem)
    (ht : t.cfg = s.cfg) (hu : u.cfg = s.cfg) : HoldsWord s u va v := by
  refine h.of_octets fun q hq => State.octet_congr ?_ hm (hu.trans ht.symm)
  rw [State.kindAt, ht]
  exact noDevice_of_ramWord hram q hq

/-- A held word in RAM is what a read gives, and reading it has no effect (R45, R52). -/
theorem HoldsWord.read (h : HoldsWord s t va v) (hmap : SameMapping s t) (hram : ramWord s va) :
    t.readWord va = v ∧ t.afterRead va = t := by
  obtain ⟨hlow, hhigh⟩ := h
  have hdev := noDevice_of_ramWord (hmap.ramWord hram)
  refine ⟨?_, State.noteRead_of_not_device hdev⟩
  rw [State.readWord_eq (hdev _ (mem_wordOctets.2 (.inr rfl))), hmap.lowAddr_eq, hmap.highAddr_eq, hlow, hhigh,
    joinOctets_low_high]

/-- A stored word is read back where the mapping stands again as it was, whatever became of the other octets. -/
theorem HoldsWord.read_back {u p : State} (h : HoldsWord s t va v) (hmap : SameMapping s p) (hram : ramWord s va)
    (hoctet : ∀ q ∈ wordOctets s va, u.octet q = t.octet q) (hmem : p.mem = u.mem) (hcfg : p.cfg = u.cfg) :
    p.readWord va = v ∧ p.afterRead va = p :=
  ((h.of_octets hoctet).congr hram hmem (hcfg.symm.trans hmap.cfg) hmap.cfg).read hmap hram

/-- A word written to RAM is held (R46). -/
theorem HoldsWord.of_writeWord (hmap : SameMapping s t) (hram : ramWord s va) (v : Word) :
    HoldsWord s (t.writeWord va v) va v := by
  obtain ⟨hlow, hhigh⟩ := hmap.ramWord hram
  rw [HoldsWord, ← hmap.lowAddr_eq, ← hmap.highAddr_eq, State.octet_writeWord hlow hhigh,
    State.octet_writeWord hlow hhigh]
  exact ⟨if_pos rfl, (if_neg (t.lowAddr_ne_highAddr va).symm).trans (if_pos rfl)⟩

/-- A write to a word of RAM apart from it leaves a held word (R46, R52). -/
theorem HoldsWord.writeWord (h : HoldsWord s t va v) (hmap : SameMapping s t) {x : Word} (hram : ramWord s x)
    (hapart : apart s va x) (w : Word) : HoldsWord s (t.writeWord x w) va v := by
  obtain ⟨hlow, hhigh⟩ := hmap.ramWord hram
  refine h.of_octets fun q hq => ?_
  obtain ⟨hqlow, hqhigh⟩ := not_or.1 (mt mem_wordOctets.2 (hapart q hq))
  rw [State.octet_writeWord hlow hhigh, hmap.lowAddr_eq, hmap.highAddr_eq, if_neg hqlow, if_neg hqhigh]

end

/-! ## Entering a handler (R310, R320) -/

theorem State.interruptEntry_frame (s : State) (m : Word) :
    SameMapping s (s.interruptEntry m) ∧ (s.interruptEntry m).sp = below s s.sp 2 := by
  rw [State.interruptEntry_eq, below_two]
  exact ⟨⟨rfl, rfl, rfl⟩, rfl⟩

/-- The handler of an OS vector call runs under the exchanged mapping (R320). -/
theorem State.osVectorCall_frame {s : State} (hova : s.ova ≠ 0) (n m : Word) :
    SameMapping (exchanged s) (s.osVectorCall n m) ∧ (s.osVectorCall n m).ovm = (exchanged s).ovm ∧
      (s.osVectorCall n m).sp = below s s.sp 3 := by
  rw [State.osVectorCall_of_ne_zero hova, below_three]
  exact ⟨⟨rfl, rfl, rfl⟩, rfl, rfl⟩

section
variable {s : State} (h₁ : ramWord s (below s s.sp 1)) (h₂ : ramWord s (below s s.sp 2))
  (h₁₂ : apart s (below s s.sp 1) (below s s.sp 2))
include h₁ h₂ h₁₂

/-- An interrupt entry stores PC, and A below it. -/
theorem interruptEntry_holdsWord (m : Word) :
    HoldsWord s (s.interruptEntry m) (below s s.sp 1) s.pc ∧
      HoldsWord s (s.interruptEntry m) (below s s.sp 2) (s.reg .a) := by
  have hfirst := (SameMapping.refl s).writeWord (below s s.sp 1) s.pc
  have hsecond := hfirst.writeWord (below s s.sp 2) (s.reg .a)
  have hpc := HoldsWord.of_writeWord (SameMapping.refl s) h₁ s.pc
  have ha := HoldsWord.of_writeWord hfirst h₂ (s.reg .a)
  obtain ⟨hentry, -⟩ := s.interruptEntry_frame m
  have hmem := congrArg State.mem (s.interruptEntry_eq_enteredInterrupt (m := m))
  exact ⟨(hpc.writeWord hfirst h₂ h₁₂ _).congr h₁ hmem hsecond.cfg hentry.cfg, ha.congr h₂ hmem hsecond.cfg hentry.cfg⟩

/-- An OS vector call stores PC, A below it, and B below that, found under the caller's mapping. -/
theorem osVectorCall_holdsWord (h₃ : ramWord s (below s s.sp 3)) (h₁₃ : apart s (below s s.sp 1) (below s s.sp 3))
    (h₂₃ : apart s (below s s.sp 2) (below s s.sp 3)) (hova : s.ova ≠ 0) (n m : Word) :
    HoldsWord s (s.osVectorCall n m) (below s s.sp 1) s.pc ∧
      HoldsWord s (s.osVectorCall n m) (below s s.sp 2) (s.reg .a) ∧
      HoldsWord s (s.osVectorCall n m) (below s s.sp 3) (s.reg .b) := by
  have hfirst := (SameMapping.refl s).writeWord (below s s.sp 1) s.pc
  have hsecond := hfirst.writeWord (below s s.sp 2) (s.reg .a)
  have hthird := hsecond.writeWord (below s s.sp 3) (s.reg .b)
  have hpc := (HoldsWord.of_writeWord (SameMapping.refl s) h₁ s.pc).writeWord hfirst h₂ h₁₂ (s.reg .a)
  have ha := HoldsWord.of_writeWord hfirst h₂ (s.reg .a)
  have hb := HoldsWord.of_writeWord hsecond h₃ (s.reg .b)
  obtain ⟨hcall, -⟩ := State.osVectorCall_frame hova n m
  have hmem := congrArg State.mem (State.osVectorCall_eq_enteredOsCall hova n m)
  exact ⟨(hpc.writeWord hsecond h₃ h₁₃ _).congr h₁ hmem hthird.cfg hcall.cfg,
    (ha.writeWord hsecond h₃ h₂₃ _).congr h₂ hmem hthird.cfg hcall.cfg, hb.congr h₃ hmem hthird.cfg hcall.cfg⟩

end

/-! ## Returning from it (R223, R240) -/

/-- Popping `k` words takes SP back to where it was `k` pushes before. -/
theorem above_below {s t : State} (h : t.mode = s.mode) (sp : Word) (j k : Nat) :
    above t (below s sp (j + k)) k = below s sp j := by
  simp only [above, below, State.wordStep_congr h, BitVec.ofNat_add]
  ring

theorem below_zero (s : State) (sp : Word) : below s sp 0 = sp := by
  simp [below]

/-- An operand that is not POP leaves SP where it was (R103). -/
theorem readHandledA_sp {s : State} {a : Operand} (ha : a ≠ .stack) : (readHandledA s a).sp = s.sp := if_neg ha

/-- The exchange is its own inverse, and so undoes the one a call made (R240, R320). -/
theorem exchanged_of_exchanged {s u : State} (hemu : u.emu = (exchanged s).emu) (hovm : u.ovm = (exchanged s).ovm) :
    exchanged u = { u with emu := s.emu, ovm := s.ovm } := by
  have hpage : (exchanged s).page (blockField s.ovm) = pageField s.ovm := s.page_setPage_self _ _
  have hupage : u.page (blockField s.ovm) = pageField s.ovm := by rw [State.page, hemu]; exact hpage
  have hovm' : u.ovm = packPage (s.page (blockField s.ovm)) (blockField s.ovm) := hovm
  have hemu' : u.emu = s.emu.set (blockField s.ovm).toFin (pageField s.ovm) := hemu
  simp only [exchanged, hovm', blockField_packPage, pageField_packPage, hupage, packPage_fields, hemu']
  simp [State.page]

/-- Settles O56: both words are read as they were stored, and reading them has no effect. -/
theorem returnUndoesInterruptEntry : Obligations.ReturnUndoesInterruptEntry := by
  intro s u m a ha t h₁ h₂ h₁₂ hcfg hmode hemu hsp hoctet
  obtain ⟨hentry, hsp'⟩ := s.interruptEntry_frame m
  obtain ⟨hpc, hreg⟩ := interruptEntry_holdsWord h₁ h₂ h₁₂ m
  have hmode' : u.mode = s.mode := hmode.trans hentry.mode
  have hmap : SameMapping s (readHandledA u a) := ⟨hcfg.trans hentry.cfg, hmode', hemu.trans hentry.emu⟩
  have hsp₀ : (readHandledA u a).sp = below s s.sp 2 := (readHandledA_sp ha).trans (hsp.trans hsp')
  have hsp₁ : above u (below s s.sp 2) 1 = below s s.sp 1 := above_below hmode' s.sp 1 1
  have hsp₂ : above u (below s s.sp 2) 2 = s.sp := (above_below hmode' s.sp 0 2).trans (below_zero s s.sp)
  obtain ⟨hpc, hpc'⟩ := hpc.read_back hmap h₁ (fun q hq => hoctet q (List.mem_append_left _ hq)) rfl rfl
  obtain ⟨hreg, hreg'⟩ := hreg.read_back hmap h₂ (fun q hq => hoctet q (List.mem_append_right _ hq)) rfl rfl
  have hexec := returnFromInterrupt u a
  simp only [hsp₀, hsp₁, hsp₂, hreg, hreg', hpc, hpc'] at hexec
  exact hexec

/-- Settles O57: the exchange brings back the caller's mapping, under which the three words are read as they were
stored, and reading them has no effect. -/
theorem returnUndoesOsVectorCall : Obligations.ReturnUndoesOsVectorCall := by
  intro s u n m a ha hova t h₁ h₂ h₃ h₁₂ h₁₃ h₂₃ hcfg hmode hemu hovm hsp hoctet
  obtain ⟨hcall, hovm', hsp'⟩ := State.osVectorCall_frame hova n m
  obtain ⟨hpc, hregA, hregB⟩ := osVectorCall_holdsWord h₁ h₂ h₁₂ h₃ h₁₃ h₂₃ hova n m
  have hmode' : u.mode = s.mode := hmode.trans hcall.mode
  have hback : exchanged (readHandledA u a) = { readHandledA u a with emu := s.emu, ovm := s.ovm } :=
    exchanged_of_exchanged (hemu.trans hcall.emu) (hovm.trans hovm')
  have hmap : SameMapping s (exchanged (readHandledA u a)) := ⟨hcfg.trans hcall.cfg, hmode', by rw [hback]⟩
  have hsp₀ : (exchanged (readHandledA u a)).sp = below s s.sp 3 := (readHandledA_sp ha).trans (hsp.trans hsp')
  have hsp₁ : above u (below s s.sp 3) 1 = below s s.sp 2 := above_below hmode' s.sp 2 1
  have hsp₂ : above u (below s s.sp 3) 2 = below s s.sp 1 := above_below hmode' s.sp 1 2
  have hsp₃ : above u (below s s.sp 3) 3 = s.sp := (above_below hmode' s.sp 0 3).trans (below_zero s s.sp)
  obtain ⟨hpc, hpc'⟩ := hpc.read_back hmap h₁
    (fun q hq => hoctet q (List.mem_append_left _ (List.mem_append_left _ hq))) rfl rfl
  obtain ⟨hregA, hregA'⟩ := hregA.read_back hmap h₂
    (fun q hq => hoctet q (List.mem_append_left _ (List.mem_append_right _ hq))) rfl rfl
  obtain ⟨hregB, hregB'⟩ := hregB.read_back hmap h₃ (fun q hq => hoctet q (List.mem_append_right _ hq)) rfl rfl
  have hexec := returnFromOsCall u a
  simp only [hsp₀, hsp₁, hsp₂, hsp₃, hregB, hregB', hregA, hregA', hpc, hpc'] at hexec
  rw [hexec, hback]
  rfl

end Sys2Proof.Machine
end

section
/-! Reset, from 70_reset_and_hazards.md: the state it leaves (R350 to R352; O46), that this state meets the invariant
(O59), and the step at whose boundary the platform asserts it (O45). -/

namespace Sys2Proof.Machine

open Sys2Proof.Safety

/-! ## The state after power-on (R350, R352) -/

section
variable (c : Config) (m : Memory)

@[simp] theorem State.powerOn_reg (r : Reg) : (State.powerOn c m).reg r = 0 :=
  Vector.getElem_replicate _

/-- A virtual address of block 0 lies at its own offset in the page the platform maps the block to (R41). -/
theorem State.powerOn_lowAddr_toNat {va : Word} (h : blockOf va = 0) :
    ((State.powerOn c m).lowAddr va).toNat = c.emuReset[0].toNat * 4096 + va.toNat % 4096 := by
  rw [State.lowAddr_of_native rfl, State.nativeAddr_toNat, h]
  rfl

/-- The first word is read from the first two octets of block 0's page (R351). -/
theorem State.powerOn_firstWord_toNat :
    ((State.powerOn c m).lowAddr 0).toNat = c.emuReset[0].toNat * 4096 ∧
      ((State.powerOn c m).highAddr 0).toNat = c.emuReset[0].toNat * 4096 + 1 := by
  have hlow := State.powerOn_lowAddr_toNat c m (va := 0) rfl
  have hhigh := State.powerOn_lowAddr_toNat c m (va := 0 + 1) rfl
  rw [State.highAddr_of_native rfl, hlow, hhigh]
  simp

end

/-- The default layout maps block `b` to page `b` (R352). -/
theorem State.reset_page_toNat (b : Block) : (State.reset.page b).toNat = b.toNat := by
  have hpage : State.reset.page b = BitVec.ofNat 12 b.toNat := Vector.getElem_ofFn _
  have hb := b.isLt
  rw [hpage, BitVec.toNat_ofNat]
  omega

/-- Settles O46: but for the registers and the addresses of the first word, the fields are those `State.powerOn` lists. -/
theorem resetState : Obligations.ResetState := by
  refine ⟨fun c m => ?_, rfl, State.reset_page_toNat, State.powerOn_firstWord_toNat Config.default []⟩
  exact ⟨rfl, fun _ => rfl, State.powerOn_reg c m, rfl, rfl, rfl, rfl, rfl, rfl, rfl, rfl, rfl, rfl, rfl, rfl, rfl, rfl,
    State.powerOn_firstWord_toNat c m⟩

/-! ## The invariant (R19, R260, R353) -/

theorem State.powerOn_inv (c : Config) {m : Memory} (hm : m.wf) : Inv (State.powerOn c m) :=
  ⟨hm, Nat.zero_le _, fun hrun => absurd rfl hrun⟩

theorem State.powerOn_haltedDisabled (c : Config) (m : Memory) : HaltedDisabled (State.powerOn c m) := fun _ => rfl

/-- Settles O59: the reset state is that of power-on with nothing listed in memory. -/
theorem resetMeetsInvariant : Obligations.ResetMeetsInvariant :=
  ⟨State.powerOn_inv _ Memory.wf_nil, State.powerOn_haltedDisabled _ _,
    fun c m hm => ⟨State.powerOn_inv c hm, State.powerOn_haltedDisabled c m⟩⟩

/-! ## A reset the platform asserts (R350, R100) -/

section
variable {s : State}

/-- A reset is taken in any state, and takes the boundary's place in the platform's schedule. -/
theorem State.arrivals_of_reset (h : s.inputs.headD [] = [.reset]) : s.arrivals = some (turned (afterReset s)) := by
  have hreset : s.beginTurn.resetAll = turned (afterReset s) := s.beginTurn.resetAll_eq_afterReset
  rw [State.arrivals, h, ← hreset]
  rfl

/-- A running CPU that skips nothing performs the instruction at PC where no message is triggered. -/
theorem step_of_running {t : State} (ha : s.arrivals = some t) (hskip : t.skip = false) (hrun : t.run = .running)
    (hquiet : t.iq = [] ∨ t.qf = true ∨ t.byt ≠ .off) : step s = exec t.fetchInstr t := by
  have hboundary : s.boundary = .perform t.deliver := by
    simp only [State.boundary, ha, hskip, hrun, Bool.false_eq_true, if_false]
  rw [step, hboundary, State.deliver_of_not_triggered hquiet]

end

/-- Settles O45: the reset leaves a running CPU whose queue is empty. -/
theorem platformReset : Obligations.PlatformReset := fun _ h =>
  step_of_running (State.arrivals_of_reset h) rfl rfl (.inl rfl)

end Sys2Proof.Machine
end
